-- ==== Sys2Proof/Word.lean ====
section
/-! DEFINITION. The word types of the block: the byte every frame, operand and the accumulator is made of
(00_scope.md R6), and the 64-bit word of the result register (00_scope.md R4, `RES_WIDTH`). -/

namespace Sys2Proof

/-- An unsigned 8-bit value; bit 0 is the least significant, bit 7 "the accumulator's high bit" (R5, R6). -/
abbrev Byte := BitVec 8

/-- The width of `RES` (R4 `RES_WIDTH`, R12). -/
abbrev Dword := BitVec 64

/-- A command frame: the opcode byte, then the operand bytes (R50). -/
abbrev Frame := List Byte

end Sys2Proof
end

