-- ==== Sys2Proof/Config.lean ====
section
/-! DEFINITION. The implementation parameters the spec leaves open (00_scope.md R4, the rows `MAX_FRAME` and
`T_SENTINEL_ON_CHECKED`) and the one free value (93_implementation_defined.md U1). -/

namespace Sys2Proof

/-- The two named parameters of R4. A claim that quantifies over a `Config` holds for every setting.
DESIGN CHOICE (log 2, safe): the model holds one in State, where no step writes it. -/
structure Config where
  /-- `MAX_FRAME - 15`: R4 makes `MAX_FRAME` "an integer at least 15", so only the excess is free. -/
  frameSlack : Nat
  /-- `T_SENTINEL_ON_CHECKED` (R4, R96, D13): whether `DEC.T` makes the sentinel test. -/
  tSentinelOnChecked : Bool
  deriving DecidableEq, Repr

/-- `MAX_FRAME` (R4, R50, D16): the longest frame the command port takes, in bytes. -/
def Config.maxFrame (c : Config) : Nat := 15 + c.frameSlack

/-- The spec's defaults: `MAX_FRAME = 256`, `T_SENTINEL_ON_CHECKED = true` (R4). -/
def Config.default : Config := { frameSlack := 241, tSentinelOnChecked := true }

theorem Config.fifteen_le_maxFrame (c : Config) : 15 ≤ c.maxFrame := Nat.le_add_right 15 _

/-- FREE VALUE (U1, R12, R168; log 3): what `RES` holds at the `n`-th draw of an unspecified value. It has no
body, so nothing can be proved of it: not that it is zero, not that it is the previous result. -/
opaque Config.unspecifiedRes : Nat → Dword

end Sys2Proof
end

