-- ==== Sys2Proof/Syntax.lean ====
section
/-! DEFINITION. The command set, version 1: one constructor per row of opcode_table.json (30_encoding.md R52), with
the operands of R54 as bytes. -/

namespace Sys2Proof

/-- The 14 bytes of the SerialNumberBuffer by buffer index (10_state.md R21, 42_serial_number.md R110): group A is
`s0` to `s7`, group B is `s8` to `s13`. -/
structure SerialBuffer where
  s0 : Byte
  s1 : Byte
  s2 : Byte
  s3 : Byte
  s4 : Byte
  s5 : Byte
  s6 : Byte
  s7 : Byte
  s8 : Byte
  s9 : Byte
  s10 : Byte
  s11 : Byte
  s12 : Byte
  s13 : Byte
  deriving DecidableEq, Repr

/-- One command (R52). Operands are bytes as they stand in the frame (R54): the legality of `r` and `on` is the
command's own test, not the decoder's (R55, R53). -/
inductive Instr where
  /-- `CRC.CLR` (R72). -/
  | crcClr
  /-- `CRC.BYTE b` (R73). -/
  | crcByte (b : Byte)
  /-- `CRC.SPAN [d0, ...]` (R74). -/
  | crcSpan (ds : List Byte)
  /-- `CRC.CHK c` (R75). -/
  | crcChk (c : Byte)
  /-- `DEC.RH m, l, c` (R95). -/
  | decRh (m l c : Byte)
  /-- `DEC.T m, l, c` (R96). -/
  | decT (m l c : Byte)
  /-- `DEC.TLH m, l` (R97). -/
  | decTlh (m l : Byte)
  /-- `DEC.SN [s0, ..., s13]` (R112). -/
  | decSn (buf : SerialBuffer)
  /-- `UR.GRES u` (R120). -/
  | urGres (u : Byte)
  /-- `UR.SRES u, r` (R121). -/
  | urSres (u r : Byte)
  /-- `UR.GHTR u` (R122). -/
  | urGhtr (u : Byte)
  /-- `UR.SHTR u, on` (R123). -/
  | urShtr (u on : Byte)
  /-- `HR.GLVL h` (R124). -/
  | hrGlvl (h : Byte)
  /-- `HR.SLVL h, v` (R125). -/
  | hrSlvl (h v : Byte)
  deriving DecidableEq, Repr

end Sys2Proof
end

