-- ==== Sys2Proof/WellFormed.lean ====
section
/-! DEFINITION. Which commands a frame can spell, and which a host that keeps the document's types would spell. -/

namespace Sys2Proof

/-- The command has a frame the port takes. Only `CRC.SPAN` can be too long: it carries 0 to `MAX_FRAME - 1` bytes
(R51, R74); every other frame has at most 15 bytes, and `MAX_FRAME` is at least 15 (R4). -/
def Instr.wellFormed (cfg : Config) : Instr → Bool
  | .crcSpan ds => decide (ds.length + 1 ≤ cfg.maxFrame)
  | .crcClr => true
  | .crcByte _ => true
  | .crcChk _ => true
  | .decRh _ _ _ => true
  | .decT _ _ _ => true
  | .decTlh _ _ => true
  | .decSn _ => true
  | .urGres _ => true
  | .urSres _ _ => true
  | .urGhtr _ => true
  | .urShtr _ _ => true
  | .hrGlvl _ => true
  | .hrSlvl _ _ => true

/-- The operands are in the range of the document's typed arguments (R55): `r` of `UR.SRES` is one of the four
resolution patterns (R24), `on` of `UR.SHTR` is 0 or 1. A command outside it still runs: it ends with
`IllegalOperand` (R55, R121, R123). -/
def Instr.operandsLegal : Instr → Bool
  | .urSres _ r => r == 0x00#8 || r == 0x01#8 || r == 0x80#8 || r == 0x81#8
  | .urShtr _ on => on == 0x00#8 || on == 0x01#8
  | .crcClr => true
  | .crcByte _ => true
  | .crcSpan _ => true
  | .crcChk _ => true
  | .decRh _ _ _ => true
  | .decT _ _ _ => true
  | .decTlh _ _ => true
  | .decSn _ => true
  | .urGres _ => true
  | .urGhtr _ => true
  | .hrGlvl _ => true
  | .hrSlvl _ _ => true

end Sys2Proof
end

