-- ==== Sys2Proof/Decode.lean ====
section
/-! DEFINITION. The decoder of 30_encoding.md R53, total on every byte list and rejecting by name; the encoder, from
the frame formats of R51 and the opcode map of R52; the rows of opcode_table.json (R64); and the reading of a table
word as a frame. -/

namespace Sys2Proof

/-- The fourteen opcodes of the opcode map (R52). -/
inductive Opcode where
  | crcClr | crcByte | crcSpan | crcChk
  | decRh | decT | decTlh | decSn
  | urGres | urSres | urGhtr | urShtr | hrGlvl | hrSlvl
  deriving DecidableEq, Repr

/-- Why a frame is `Illegal` (R53, R56). The block reports all four as `IllegalCommand` and keeps no more (R166). -/
inductive FrameError where
  /-- "empty frame" (R53). -/
  | emptyFrame
  /-- "over-long frame": more than `MAX_FRAME` bytes (R53). -/
  | overLong
  /-- An opcode byte that is none of the fourteen (R52, R57). -/
  | unknownOpcode (b : Byte)
  /-- A known opcode byte with the wrong number of operand bytes (R53). -/
  | wrongLength (o : Opcode)
  deriving DecidableEq, Repr

/-- The opcode byte (R52): the high nibble is the family. -/
def Opcode.byte : Opcode → Byte
  | .crcClr => 0x00
  | .crcByte => 0x01
  | .crcSpan => 0x02
  | .crcChk => 0x03
  | .decRh => 0x10
  | .decT => 0x11
  | .decTlh => 0x12
  | .decSn => 0x13
  | .urGres => 0x20
  | .urSres => 0x21
  | .urGhtr => 0x22
  | .urShtr => 0x23
  | .hrGlvl => 0x24
  | .hrSlvl => 0x25

def Opcode.all : List Opcode :=
  [.crcClr, .crcByte, .crcSpan, .crcChk, .decRh, .decT, .decTlh, .decSn] ++
  [.urGres, .urSres, .urGhtr, .urShtr, .hrGlvl, .hrSlvl]

/-- The opcode a byte stands for; the other 242 bytes stand for none (R52, R57). -/
def Opcode.ofByte? (b : Byte) : Option Opcode :=
  Opcode.all.find? fun o => o.byte == b

/-- The number of operand bytes of the opcode's format (R51): `none` for format `V`, whose length only the frame's end
gives (R58). -/
def Opcode.operandCount : Opcode → Option Nat
  | .crcClr => some 0
  | .crcByte => some 1
  | .crcSpan => none
  | .crcChk => some 1
  | .decRh => some 3
  | .decT => some 3
  | .decTlh => some 2
  | .decSn => some 14
  | .urGres => some 1
  | .urSres => some 2
  | .urGhtr => some 1
  | .urShtr => some 2
  | .hrGlvl => some 1
  | .hrSlvl => some 2

/-- The right-hand sides of R53: the operand bytes of an opcode as a command, or `Illegal` at a wrong length. -/
def Opcode.readOperands : Opcode → List Byte → Except FrameError Instr
  | .crcClr, [] => .ok .crcClr
  | .crcByte, [b] => .ok (.crcByte b)
  | .crcSpan, ds => .ok (.crcSpan ds)
  | .crcChk, [c] => .ok (.crcChk c)
  | .decRh, [m, l, c] => .ok (.decRh m l c)
  | .decT, [m, l, c] => .ok (.decT m l c)
  | .decTlh, [m, l] => .ok (.decTlh m l)
  | .decSn, [s0, s1, s2, s3, s4, s5, s6, s7, s8, s9, s10, s11, s12, s13] =>
      .ok (.decSn ⟨s0, s1, s2, s3, s4, s5, s6, s7, s8, s9, s10, s11, s12, s13⟩)
  | .urGres, [u] => .ok (.urGres u)
  | .urSres, [u, r] => .ok (.urSres u r)
  | .urGhtr, [u] => .ok (.urGhtr u)
  | .urShtr, [u, on] => .ok (.urShtr u on)
  | .hrGlvl, [h] => .ok (.hrGlvl h)
  | .hrSlvl, [h, v] => .ok (.hrSlvl h v)
  | o, _ => .error (.wrongLength o)

/-- `decode(f)` of R53, its tests in its order. -/
def decode (cfg : Config) : Frame → Except FrameError Instr
  | [] => .error .emptyFrame
  | op :: args =>
    if cfg.maxFrame < (op :: args).length then .error .overLong
    else
      match Opcode.ofByte? op with
      | none => .error (.unknownOpcode op)
      | some o => o.readOperands args

/-- The opcode of a command (R52). -/
def Instr.opcode : Instr → Opcode
  | .crcClr => .crcClr
  | .crcByte _ => .crcByte
  | .crcSpan _ => .crcSpan
  | .crcChk _ => .crcChk
  | .decRh _ _ _ => .decRh
  | .decT _ _ _ => .decT
  | .decTlh _ _ => .decTlh
  | .decSn _ => .decSn
  | .urGres _ => .urGres
  | .urSres _ _ => .urSres
  | .urGhtr _ => .urGhtr
  | .urShtr _ _ => .urShtr
  | .hrGlvl _ => .hrGlvl
  | .hrSlvl _ _ => .hrSlvl

/-- The bytes of a SerialNumberBuffer in buffer-index order (R21, R50). -/
def SerialBuffer.bytes (b : SerialBuffer) : List Byte :=
  [b.s0, b.s1, b.s2, b.s3, b.s4, b.s5, b.s6, b.s7] ++ [b.s8, b.s9, b.s10, b.s11, b.s12, b.s13]

/-- The operand bytes of a command in frame order (R51, R54). -/
def Instr.operandBytes : Instr → List Byte
  | .crcClr => []
  | .crcByte b => [b]
  | .crcSpan ds => ds
  | .crcChk c => [c]
  | .decRh m l c => [m, l, c]
  | .decT m l c => [m, l, c]
  | .decTlh m l => [m, l]
  | .decSn buf => buf.bytes
  | .urGres u => [u]
  | .urSres u r => [u, r]
  | .urGhtr u => [u]
  | .urShtr u on => [u, on]
  | .hrGlvl h => [h]
  | .hrSlvl h v => [h, v]

/-- The frame that spells a command: its opcode byte, then its operand bytes (R50, R51). -/
def encode (i : Instr) : Frame := i.opcode.byte :: i.operandBytes

/-- A row's `length` (R64): a number, or the string `"1..MAX_FRAME"`. -/
inductive FrameLength where
  | exactly (n : Nat)
  | upToMaxFrame
  deriving DecidableEq, Repr

/-- A row of opcode_table.json (R64). -/
structure OpcodeRow where
  mnemonic : String
  pattern : Byte
  mask : Byte
  length : FrameLength
  deriving DecidableEq, Repr

/-- The rows of opcode_table.json, as they stand there. -/
def opcodeTable : List OpcodeRow :=
  [ ⟨"CRC.CLR", 0x00, 0xff, .exactly 1⟩,
    ⟨"CRC.BYTE", 0x01, 0xff, .exactly 2⟩,
    ⟨"CRC.SPAN", 0x02, 0xff, .upToMaxFrame⟩,
    ⟨"CRC.CHK", 0x03, 0xff, .exactly 2⟩ ] ++
  [ ⟨"DEC.RH", 0x10, 0xff, .exactly 4⟩,
    ⟨"DEC.T", 0x11, 0xff, .exactly 4⟩,
    ⟨"DEC.TLH", 0x12, 0xff, .exactly 3⟩,
    ⟨"DEC.SN", 0x13, 0xff, .exactly 15⟩ ] ++
  [ ⟨"UR.GRES", 0x20, 0xff, .exactly 2⟩,
    ⟨"UR.SRES", 0x21, 0xff, .exactly 3⟩,
    ⟨"UR.GHTR", 0x22, 0xff, .exactly 2⟩,
    ⟨"UR.SHTR", 0x23, 0xff, .exactly 3⟩,
    ⟨"HR.GLVL", 0x24, 0xff, .exactly 2⟩,
    ⟨"HR.SLVL", 0x25, 0xff, .exactly 3⟩ ]

/-- Whether a frame length is the row's (R64); `"1..MAX_FRAME"` is every length from 1 to `MAX_FRAME`. -/
def FrameLength.admits (cfg : Config) (n : Nat) : FrameLength → Bool
  | .exactly k => n == k
  | .upToMaxFrame => decide (1 ≤ n ∧ n ≤ cfg.maxFrame)

/-- "A frame selects a row when `f[0] & mask = match` and `len(f)` equals the row's `length`" (R64). -/
def OpcodeRow.selectedBy (cfg : Config) (f : Frame) (row : OpcodeRow) : Bool :=
  match f with
  | [] => false
  | op :: _ => (op &&& row.mask) == row.pattern && row.length.admits cfg f.length

/-- The rows a frame selects; a frame that selects none is illegal (R64, R56). -/
def selectedRows (cfg : Config) (f : Frame) : List OpcodeRow :=
  opcodeTable.filter (OpcodeRow.selectedBy cfg f)

/-- The mnemonic of an opcode (R52). -/
def Opcode.mnemonic : Opcode → String
  | .crcClr => "CRC.CLR"
  | .crcByte => "CRC.BYTE"
  | .crcSpan => "CRC.SPAN"
  | .crcChk => "CRC.CHK"
  | .decRh => "DEC.RH"
  | .decT => "DEC.T"
  | .decTlh => "DEC.TLH"
  | .decSn => "DEC.SN"
  | .urGres => "UR.GRES"
  | .urSres => "UR.SRES"
  | .urGhtr => "UR.GHTR"
  | .urShtr => "UR.SHTR"
  | .hrGlvl => "HR.GLVL"
  | .hrSlvl => "HR.SLVL"

/-- The low `n` bytes of a number, least significant first: how opcode_table.json's bit numbers stand for bytes, the
first byte in bits 7 to 0. -/
def wordBytes (n w : Nat) : List Byte :=
  (List.range n).map fun k => BitVec.ofNat 8 (w / 2 ^ (8 * k))

/-- The bytes with zero operand bytes added up to the length the opcode fixes (R52, R58); a `CRC.SPAN` keeps the
length it has. DESIGN CHOICE (log 9). -/
def padOperands : List Byte → Frame
  | [] => []
  | op :: args =>
    match (Opcode.ofByte? op).bind Opcode.operandCount with
    | some n => op :: (args ++ List.replicate (n - args.length) 0)
    | none => op :: args

/-- The frame of a table word: `nbits` bits of `w` as bytes, the bits above them zero (log 9). -/
def tableFrame (nbits w : Nat) : Frame := padOperands (wordBytes ((nbits + 7) / 8) w)

/-- The command the decoder reads from a table word, under the spec's default parameters. -/
def decodeTableWord (nbits w : Nat) : Option Instr :=
  (decode Config.default (tableFrame nbits w)).toOption

end Sys2Proof
end

