-- ==== Sys2Proof/Machine/State.lean ====
section
/-! DEFINITION. The state of the block (10_state.md), as plain data; the host's moves (44_host_session.md R157); the
error kinds (60_exceptions.md R160); why a step could stop; and the state after reset. -/

namespace Sys2Proof.Machine

/-- The errors the block reports, by the names of R160. `TransportError` is not among them: the block never raises it
and has no code for it (R165). -/
inductive BlockError where
  | checksumFailure
  | noPreviousHumidityMeasurement
  | invalidHeaterLevel
  | illegalCommand
  | illegalOperand
  deriving DecidableEq, Repr

/-- A move of the host between two commands (R157). -/
inductive HostMove where
  /-- One frame on the command port: any byte list, legal or not (R157). -/
  | command (f : Frame)
  /-- The host reads `RES` (R157, "read state"). -/
  | readRes
  /-- The reset input, applied between commands (R180, R181). -/
  | reset
  deriving DecidableEq, Repr

/-- The state of the block: `CRC`, `RES` and `STATUS` (10_state.md section 1), then the model's own fields. -/
structure State where
  /-- `CRC`, the running checksum (R10). -/
  crc : Byte
  /-- `RES`, the value the last command returned (R12); a free value while `RV = 0` (U1, log 3). -/
  res : Dword
  /-- `ERR`, `STATUS[2:0]` (R13): the code of the last command's error. -/
  err : BitVec 3
  /-- `RV`, `STATUS[3]` (R13): result valid. `STATUS[7:4]` is hardwired zero and not stored (`State.status`, log 5). -/
  rv : Bool
  /-- The model's own: how many free values of `RES` have been drawn (log 3). -/
  draws : Nat
  /-- The model's own: the host's next moves, oldest first (R41, log 1). -/
  port : List HostMove
  /-- The model's own: the implementation's parameters (R4, log 2). No step writes them. -/
  cfg : Config
  deriving DecidableEq, Repr

/-- Why the machine could stop with a fault: never. Every error of the spec is a value of `ERR` after which the block
waits for the next frame (R168, R169), so no constructor exists; nobody raises one. -/
inductive Fault where
  deriving DecidableEq, Repr

/-- Why a step could be refused. -/
inductive Refusal where
  /-- The command has no meaning yet; raised only by a refused arm of `exec`, and no arm is refused. Safe. -/
  | notModelled (mnemonic : String)
  deriving DecidableEq, Repr

/-- The reset state of R27: `CRC = 0x00`, `ERR = 0`, `RV = 0`, and `RES` unspecified.
DESIGN CHOICE (log 4): the unspecified `RES` is the first draw of the free value; `draws` is then 1.
DESIGN CHOICE (log 1, log 2): no host move waits, and the parameters are the spec's defaults. -/
def State.reset : State :=
  { crc := 0x00
    res := Config.unspecifiedRes 0
    err := 0
    rv := false
    draws := 1
    port := []
    cfg := Config.default }

end Sys2Proof.Machine
end

