-- ==== Sys2Proof/Machine/Flags.lean ====
section
/-! DEFINITION. The status register: the error codes of 60_exceptions.md R160 and the layout of 10_state.md R13. -/

namespace Sys2Proof.Machine

/-- The `ERR` code of an error (R160). Codes 6 and 7 are never written. -/
def BlockError.code : BlockError → BitVec 3
  | .checksumFailure => 1
  | .noPreviousHumidityMeasurement => 2
  | .invalidHeaterLevel => 3
  | .illegalCommand => 4
  | .illegalOperand => 5

/-- `STATUS` as the host reads it (R13): bits 7 to 4 hardwired zero, bit 3 `RV`, bits 2 to 0 `ERR`. -/
def State.status (s : State) : Byte := 0#4 ++ BitVec.ofBool s.rv ++ s.err

/-- The value the host may use: `RES` when `RV = 1`, nothing otherwise (R12, R187). -/
def State.result (s : State) : Option Dword := if s.rv then some s.res else none

end Sys2Proof.Machine
end

