-- ==== Sys2Proof/Machine/Operands.lean ====
section
/-! DEFINITION. The operand forms (10_state.md R19 to R24, 20_memory.md R33, R34, 00_scope.md R6) and the register
masks of 00_scope.md R4. -/

namespace Sys2Proof.Machine

/-- `zext_64` of a byte (R6). -/
def zext64 (b : Byte) : Dword := b.setWidth 64

/-- A non-negative value placed in 64 bits, `zext_64` (R6). -/
def zext64Nat (v : Nat) : Dword := BitVec.ofNat 64 v

/-- `sext_64`: the 64-bit two's complement of a signed value (R6). -/
def sext64 (v : Int) : Dword := BitVec.ofInt 64 v

/-- A Boolean result: 1 for true, 0 for false (R12, R122). -/
def boolResult (b : Bool) : Dword := if b then 1 else 0

/-- `RES[7:0]`, the byte a host sends to a device register (R32, R187). -/
def lowByte (v : Dword) : Byte := v.setWidth 8

/-- `be16(m, l) = m * 256 + l` (R33). -/
def be16 (m l : Byte) : Nat := m.toNat * 256 + l.toNat

/-- The data bytes of checksum group A: buffer bytes 0, 2, 4, 6, in that order (R21, R35). -/
def groupA (s : SerialBuffer) : List Byte := [s.s0, s.s2, s.s4, s.s6]

/-- The data bytes of checksum group B: buffer bytes 8, 9, 11, 12, in that order (R21, R35). -/
def groupB (s : SerialBuffer) : List Byte := [s.s8, s.s9, s.s11, s.s12]

/-- The identifier `sn` (R111). -/
def serialNumber (s : SerialBuffer) : Nat :=
  s.s0.toNat * 2 ^ 56 + s.s2.toNat * 2 ^ 48 + s.s4.toNat * 2 ^ 40 + s.s6.toNat * 2 ^ 32 +
  s.s8.toNat * 2 ^ 24 + s.s9.toNat * 2 ^ 16 + s.s11.toNat * 2 ^ 8 + s.s12.toNat

/-- MeasurementResolution (R24). -/
inductive Resolution where
  | rh12Temp14
  | rh8Temp12
  | rh10Temp10
  | rh11Temp11
  deriving DecidableEq, Repr

/-- `pattern_of`: the pattern byte of a resolution (R24). -/
def patternOf : Resolution → Byte
  | .rh12Temp14 => 0x00
  | .rh8Temp12 => 0x01
  | .rh10Temp10 => 0x80
  | .rh11Temp11 => 0x81

/-- The resolution a pattern byte stands for; any other byte is no operand of `UR.SRES` (R55 (a)). -/
def resolutionOfPattern (r : Byte) : Option Resolution :=
  [Resolution.rh12Temp14, .rh8Temp12, .rh10Temp10, .rh11Temp11].find? fun q => patternOf q == r

/-- The Boolean an `on` operand stands for; any byte but 0 and 1 is no operand of `UR.SHTR` (R55 (b)). -/
def boolOfOperand (on : Byte) : Option Bool :=
  if on = 0x00 then some false else if on = 0x01 then some true else none

/-- `UR_RES_MASK`: resolution bits 0 and 7 of the UserRegister (R4, R22). -/
def urResMask : Byte := 0x81
/-- `UR_RES_KEEP`: the bits `set_resolution` keeps (R4). -/
def urResKeep : Byte := 0x7e
/-- `UR_HTRE_MASK`: the heater-enable bit 2 of the UserRegister (R4, R22). -/
def urHtreMask : Byte := 0x04
/-- `UR_HTRE_KEEP`: the bits `set_heater_enabled` keeps (R4). -/
def urHtreKeep : Byte := 0xfb
/-- `HR_LVL_MASK`: level bits 0 to 3 of the HeaterRegister (R4, R23). -/
def hrLvlMask : Byte := 0x0f
/-- `HR_LVL_KEEP`: the bits `set_heater_level` keeps (R4). -/
def hrLvlKeep : Byte := 0xf0
/-- `HR_LVL_MAX`: the largest legal heater level (R4). -/
def hrLvlMax : Byte := 0x0f

end Sys2Proof.Machine
end

