-- ==== Sys2Proof/Machine/Ops.lean ====
section
/-! DEFINITION. The operations the commands share: the checksum functions (40_checksum.md R70, R71, R76, R78), the
conversion functions (41_measurement_decode.md R90 to R92), the two ends of a command (10_state.md R15,
60_exceptions.md R168), and the host's reset and read (70_reset_and_hazards.md R180, 93_implementation_defined.md U1). -/

namespace Sys2Proof.Machine

/-- `CRC_POLY` (R4). -/
def crcPoly : Byte := 0x31

/-- One of the 8 iterations of R70: the high bit tested is the one before the shift. -/
def crcRound (t : Byte) : Byte := if t.msb then (t <<< 1) ^^^ crcPoly else t <<< 1

/-- `n` iterations of R70. -/
def crcRounds : Nat → Byte → Byte
  | 0, t => t
  | n + 1, t => crcRounds n (crcRound t)

/-- `crc8_step(c, b)` (R70); `CRC_ROUNDS` is 8 (R4). -/
def crc8Step (c b : Byte) : Byte := crcRounds 8 (c ^^^ b)

/-- `crc8(c, bytes)` (R71): `crc8_step` folded over the span in list order. -/
def crc8 (c : Byte) (bytes : List Byte) : Byte := bytes.foldl crc8Step c

/-- `CRC_INIT` (R4): the value of a new accumulator. -/
def crcInit : Byte := 0x00

/-- `check(data, c)` (R78): on a private accumulator that starts at `0x00`. -/
def check (data : List Byte) (c : Byte) : Bool := crc8 crcInit data == c

/-- `T[x]` (R76 (b)): the one table of the checksum, by which `crc8_step(c, b) = T[c xor b]`. -/
def crcTable (x : Byte) : Byte := crc8Step crcInit x

/-- The zero-residue test of R76 (d): the trailing byte is folded in and the accumulator compared with zero. The block
validates by `check`; that the two tests agree is a law. -/
def residueCheck (data : List Byte) (c : Byte) : Bool := crc8 crcInit (data ++ [c]) == 0x00

/-- `rh_raw_value(raw)` (R90): multiply, divide, then subtract. -/
def rhRawValue (raw : Nat) : Int := ((12500 * raw / 65536 : Nat) : Int) - 600

/-- `rh_value(raw)` (R91): clamped to 0 to 10000. -/
def rhValue (raw : Nat) : Int := min 10000 (max 0 (rhRawValue raw))

/-- `t_value(raw)` (R92): signed, not clamped. -/
def tValue (raw : Nat) : Int := ((17572 * raw / 65536 : Nat) : Int) - 4685

/-- The sentinel `[0x00, 0x00]` (R94). -/
def isSentinel (m l : Byte) : Bool := m == 0x00 && l == 0x00

/-- `CRC <- v`. -/
def State.setCrc (s : State) (v : Byte) : State := { s with crc := v }

/-- The normal end of a command (R15): `RES <- v; RV <- 1; ERR <- 0`. -/
def State.done (s : State) (v : Dword) : State := { s with res := v, rv := true, err := 0 }

/-- `RES` becomes unspecified (U1): the next draw of the free value (log 3). -/
def State.drawRes (s : State) : State :=
  { s with res := Config.unspecifiedRes s.draws, draws := s.draws + 1 }

/-- `raise <Error>` (R168), the whole of taking an error: `ERR <- code`, `RV <- 0`, `RES` unspecified, and everything
else, `CRC` among it, kept. Control goes nowhere, and there is no return from it (R169). -/
def State.raise (s : State) (e : BlockError) : State :=
  { s.drawRes with err := e.code, rv := false }

/-- The reset input (R180): `CRC`, `ERR` and `RV` as R27 says, `RES` unspecified. The host's further moves and the
parameters are not the block's to reset (log 7). -/
def State.resetInput (s : State) : State :=
  { s.drawRes with crc := 0x00, err := 0, rv := false }

/-- The host reads `RES`: no effect (R39), except that while `RV = 0` the value is "a free draw at each read" (U1,
log 6). The value read is `RES` of the state after. -/
def State.readRes (s : State) : State := if s.rv then s else s.drawRes

/-- The host's further moves. -/
def State.withPort (s : State) (p : List HostMove) : State := { s with port := p }

end Sys2Proof.Machine
end

