-- ==== Sys2Proof/Machine/Checksum.lean ====
section
/-! DEFINITION. The Checksum Engine commands (40_checksum.md R72 to R75). -/

namespace Sys2Proof.Machine

open Host

/-- `CRC.CLR` (R72): `CRC <- 0x00; done(zext_64(0x00))`. -/
def execCrcClr (s : State) : Outcome State Fault Refusal :=
  .next ((s.setCrc crcInit).done (zext64 crcInit))

/-- `CRC.BYTE b` (R73): `n = crc8_step(CRC, b); CRC <- n; done(zext_64(n))`. -/
def execCrcByte (b : Byte) (s : State) : Outcome State Fault Refusal :=
  let n := crc8Step s.crc b
  .next ((s.setCrc n).done (zext64 n))

/-- `CRC.SPAN ds` (R74): `n = crc8(CRC, ds); CRC <- n; done(zext_64(n))`. -/
def execCrcSpan (ds : List Byte) (s : State) : Outcome State Fault Refusal :=
  let n := crc8 s.crc ds
  .next ((s.setCrc n).done (zext64 n))

/-- `CRC.CHK c` (R75): compares, does not fold `c` in and does not clear. -/
def execCrcChk (c : Byte) (s : State) : Outcome State Fault Refusal :=
  if s.crc = c then .next (s.done (zext64 s.crc)) else .next (s.raise .checksumFailure)

end Sys2Proof.Machine
end

