-- ==== Sys2Proof/Machine/Measurement.lean ====
section
/-! DEFINITION. The measurement decoder commands (41_measurement_decode.md R95 to R97). None reads or writes `CRC`
(10_state.md R11). -/

namespace Sys2Proof.Machine

open Host

/-- The end of the temperature path: `done(sext_64(t_value(be16(m, l))))` (R96, R97). -/
def State.doneTemperature (s : State) (m l : Byte) : State := s.done (sext64 (tValue (be16 m l)))

/-- `DEC.RH m, l, c` (R95). -/
def execDecRh (m l c : Byte) (s : State) : Outcome State Fault Refusal :=
  if check [m, l] c then .next (s.done (zext64Nat (rhValue (be16 m l)).toNat))
  else .next (s.raise .checksumFailure)

/-- `DEC.T m, l, c` (R96): the checksum test, then the sentinel test if the parameter says so. -/
def execDecT (m l c : Byte) (s : State) : Outcome State Fault Refusal :=
  if check [m, l] c then
    if s.cfg.tSentinelOnChecked && isSentinel m l then .next (s.raise .noPreviousHumidityMeasurement)
    else .next (s.doneTemperature m l)
  else .next (s.raise .checksumFailure)

/-- `DEC.TLH m, l` (R97): no checksum on this read, only the sentinel test. -/
def execDecTlh (m l : Byte) (s : State) : Outcome State Fault Refusal :=
  if isSentinel m l then .next (s.raise .noPreviousHumidityMeasurement)
  else .next (s.doneTemperature m l)

end Sys2Proof.Machine
end

