-- ==== Sys2Proof/Machine/RegisterCodec.lean ====
section
/-! DEFINITION. The configuration register codec commands (43_register_codec.md R120 to R125): pure functions of the
operand bytes (R126). -/

namespace Sys2Proof.Machine

open Host

/-- `resolution(user_reg)`, the document's map (R120): its "any other value" arm is taken for `0x81` alone (U3). -/
def resolution (u : Byte) : Resolution :=
  if u &&& urResMask = 0x00 then .rh12Temp14
  else if u &&& urResMask = 0x01 then .rh8Temp12
  else if u &&& urResMask = 0x80 then .rh10Temp10
  else .rh11Temp11

/-- `set_resolution(user_reg, value)` (R121). -/
def setResolution (u : Byte) (q : Resolution) : Byte := (u &&& urResKeep) ||| patternOf q

/-- `heater_enabled(user_reg)` (R122). -/
def heaterEnabled (u : Byte) : Bool := u &&& urHtreMask != 0

/-- `set_heater_enabled(user_reg, on)` (R123): assigns bit 2, inverts nothing (90_conflicts.md C3). -/
def setHeaterEnabled (u : Byte) (on : Bool) : Byte :=
  (u &&& urHtreKeep) ||| (if on then urHtreMask else 0x00)

/-- `heater_level(heater_reg)` (R124). -/
def heaterLevel (h : Byte) : Byte := h &&& hrLvlMask

/-- `set_heater_level(heater_reg, level)` where the level is legal (R125). -/
def setHeaterLevel (h v : Byte) : Byte := (h &&& hrLvlKeep) ||| v

/-- `UR.GRES u` (R120): the pattern byte of the resolution, which is the masked byte. -/
def execUrGres (u : Byte) (s : State) : Outcome State Fault Refusal :=
  .next (s.done (zext64 (u &&& urResMask)))

/-- `UR.SRES u, r` (R121). -/
def execUrSres (u r : Byte) (s : State) : Outcome State Fault Refusal :=
  match resolutionOfPattern r with
  | none => .next (s.raise .illegalOperand)
  | some q => .next (s.done (zext64 (setResolution u q)))

/-- `UR.GHTR u` (R122). -/
def execUrGhtr (u : Byte) (s : State) : Outcome State Fault Refusal :=
  .next (s.done (boolResult (heaterEnabled u)))

/-- `UR.SHTR u, on` (R123). -/
def execUrShtr (u on : Byte) (s : State) : Outcome State Fault Refusal :=
  match boolOfOperand on with
  | none => .next (s.raise .illegalOperand)
  | some b => .next (s.done (zext64 (setHeaterEnabled u b)))

/-- `HR.GLVL h` (R124). -/
def execHrGlvl (h : Byte) (s : State) : Outcome State Fault Refusal :=
  .next (s.done (zext64 (heaterLevel h)))

/-- `HR.SLVL h, v` (R125): the level test does not depend on `h` (90_conflicts.md C5). -/
def execHrSlvl (h v : Byte) (s : State) : Outcome State Fault Refusal :=
  if hrLvlMax < v then .next (s.raise .invalidHeaterLevel)
  else .next (s.done (zext64 (setHeaterLevel h v)))

end Sys2Proof.Machine
end

