-- ==== Sys2Proof/Machine/SerialNumber.lean ====
section
/-! DEFINITION. The serial number decoder command (42_serial_number.md R112). -/

namespace Sys2Proof.Machine

open Host

/-- `DEC.SN buf` (R112): group A, then group B, each on an accumulator of its own; buffer bytes 1, 3, 5 and 10 are not
looked at (R113). -/
def execDecSn (buf : SerialBuffer) (s : State) : Outcome State Fault Refusal :=
  if check (groupA buf) buf.s7 then
    if check (groupB buf) buf.s13 then .next (s.done (zext64Nat (serialNumber buf)))
    else .next (s.raise .checksumFailure)
  else .next (s.raise .checksumFailure)

end Sys2Proof.Machine
end

