-- ==== Sys2Proof/Machine/Dispatch.lean ====
section
/-! DEFINITION. The dispatch of a decoded command to its meaning: one arm per row of opcode_table.json. -/

namespace Sys2Proof.Machine

def exec (i : Instr) (s : State) : Host.Outcome State Fault Refusal :=
  match i with
  | .crcClr => Sys2Proof.Machine.execCrcClr s
  | .crcByte b => Sys2Proof.Machine.execCrcByte b s
  | .crcSpan ds => Sys2Proof.Machine.execCrcSpan ds s
  | .crcChk c => Sys2Proof.Machine.execCrcChk c s
  | .decRh m l c => Sys2Proof.Machine.execDecRh m l c s
  | .decT m l c => Sys2Proof.Machine.execDecT m l c s
  | .decTlh m l => Sys2Proof.Machine.execDecTlh m l s
  | .decSn buf => Sys2Proof.Machine.execDecSn buf s
  | .urGres u => Sys2Proof.Machine.execUrGres u s
  | .urSres u r => Sys2Proof.Machine.execUrSres u r s
  | .urGhtr u => Sys2Proof.Machine.execUrGhtr u s
  | .urShtr u on => Sys2Proof.Machine.execUrShtr u on s
  | .hrGlvl h => Sys2Proof.Machine.execHrGlvl h s
  | .hrSlvl h v => Sys2Proof.Machine.execHrSlvl h v s

end Sys2Proof.Machine
end

