-- ==== Sys2Proof/Machine/Port.lean ====
section
/-! DEFINITION. The command port: what the block does with one move of the host (30_encoding.md R50, R56,
44_host_session.md R157). -/

namespace Sys2Proof.Machine

open Host

/-- One frame, one atomic command (R38): the decoded command, or `raise IllegalCommand` for an `Illegal` frame (R56). -/
def execFrame (f : Frame) (s : State) : Outcome State Fault Refusal :=
  match decode s.cfg f with
  | .ok i => exec i s
  | .error _ => .next (s.raise .illegalCommand)

/-- One move of the host (R157). -/
def hostMove (m : HostMove) (s : State) : Outcome State Fault Refusal :=
  match m with
  | .command f => execFrame f s
  | .readRes => .next s.readRes
  | .reset => .next s.resetInput

/-- The next move of the host is taken off the port and made; with none, the block waits (R180, log 1). -/
def takeMove (s : State) : Outcome State Fault Refusal :=
  match s.port with
  | [] => .next s
  | m :: rest => hostMove m (s.withPort rest)

/-- The host presents a frame before the moves already waiting (log 1, log 9). -/
def State.present (s : State) (f : Frame) : State := s.withPort (.command f :: s.port)

end Sys2Proof.Machine
end

