-- ==== Sys2Proof/Machine/Step.lean ====
section
/-! DEFINITION. One step of the block, and the placing of a table word as the next frame. -/

namespace Sys2Proof.Machine

/-- One step: one move of the host, atomically (20_memory.md R38, R41). -/
def step (s : State) : Host.Outcome State Fault Refusal := takeMove s

/-- The state in which the very next step runs the command of a table word: its frame is the next one on the port. -/
def State.withFetchWord (s : State) (nbits w : Nat) : State := s.present (tableFrame nbits w)

end Sys2Proof.Machine
end

