-- ==== Sys2Proof/Machine/Assembly.lean ====
section
/-! DEFINITION. How the spec writes commands down: the text form (30_encoding.md R60) and the pseudo-commands (R61).
The machine does not use this file; the host does, and the statements about pseudo-commands do. -/

namespace Sys2Proof.Machine

/-- A pseudo-command (R61). -/
inductive Pseudo where
  /-- `CRC.OF [d0, ...]`: the document's one-argument `update([...])`. -/
  | crcOf (ds : List Byte)
  /-- `CRC.VERIFY [d0, ...], c`: the whole lifecycle of the accumulator. -/
  | crcVerify (ds : List Byte) (c : Byte)
  /-- `CRC.RD`: read the accumulator without changing it. -/
  | crcRd
  deriving DecidableEq, Repr

/-- The expansion of a pseudo-command (R61): several frames, so not atomic as a whole. -/
def Pseudo.expand : Pseudo → List Instr
  | .crcOf ds => [.crcClr, .crcSpan ds]
  | .crcVerify ds c => [.crcClr, .crcSpan ds, .crcChk c]
  | .crcRd => [.crcSpan []]

/-- The commands as the host's moves: one frame each. -/
def commandMoves (is : List Instr) : List HostMove := is.map fun i => .command (encode i)

/-- A byte written `0x` and two hexadecimal digits (R60). -/
def byteText (b : Byte) : String :=
  "0x" ++ String.ofList [Nat.digitChar (b.toNat / 16), Nat.digitChar (b.toNat % 16)]

/-- Operands separated by commas (R60). -/
def commaText : List String → String
  | [] => ""
  | [t] => t
  | t :: ts => t ++ ", " ++ commaText ts

/-- A bracketed byte list (R60). -/
def listText (ds : List Byte) : String := "[" ++ commaText (ds.map byteText) ++ "]"

/-- The operand text of a command (R60), every byte in hexadecimal: the names for `r` and `on` are optional there
(log 12). -/
def operandText : Instr → Option String
  | .crcClr => none
  | .crcSpan ds => some (listText ds)
  | .decSn buf => some (listText buf.bytes)
  | .crcByte b => some (commaText [byteText b])
  | .crcChk c => some (commaText [byteText c])
  | .decRh m l c => some (commaText [byteText m, byteText l, byteText c])
  | .decT m l c => some (commaText [byteText m, byteText l, byteText c])
  | .decTlh m l => some (commaText [byteText m, byteText l])
  | .urGres u => some (commaText [byteText u])
  | .urSres u r => some (commaText [byteText u, byteText r])
  | .urGhtr u => some (commaText [byteText u])
  | .urShtr u on => some (commaText [byteText u, byteText on])
  | .hrGlvl h => some (commaText [byteText h])
  | .hrSlvl h v => some (commaText [byteText h, byteText v])

/-- The text form of a command (R60): the mnemonic, then its operands. -/
def instrText (i : Instr) : String :=
  match operandText i with
  | none => i.opcode.mnemonic
  | some t => i.opcode.mnemonic ++ " " ++ t

end Sys2Proof.Machine
end

