-- ==== Sys2Proof/Machine/Session.lean ====
section
/-! DEFINITION. The host software of 44_host_session.md: the Sensor Session's accessors as sequences of bus calls and
frames. Out of scope as hardware (00_scope.md R3): no step of the block uses this file. The transport is an argument;
what the device answers, and why a call fails, is left free (93_implementation_defined.md U13, U15; log 10).
The document does not name the accessors for humidity, resolution and heater state, nor give their signatures
(91_not_in_source.md N14): `humidity`, `measurementResolution`, `heaterEnabledAccessor` and `heaterLevelAccessor` are the
model's own names and types, and heater state as two getters is the model's own split (DESIGN CHOICE, log 14). -/

namespace Sys2Proof.Machine

open Host

/-- A transport call (R142). -/
inductive BusCall where
  /-- `write_then_read(address, command_bytes, out_buffer)`; `len` is `len(out_buffer)`. -/
  | writeThenRead (addr : BitVec 7) (cmd : List Byte) (len : Nat)
  /-- `write(address, bytes)`. -/
  | write (addr : BitVec 7) (bytes : List Byte)
  deriving DecidableEq, Repr

/-- The device behind the bus, whatever it does: the result of a call, given the calls made before it. A success of a
read gives the response byte at each buffer index below `len`; `ε` is the transport's own error (U13). -/
abbrev Transport (ε : Type) := List BusCall → BusCall → Except ε (Nat → Byte)

/-- How an accessor can fail (60_exceptions.md R160). -/
inductive SessionError (ε : Type) where
  /-- `TransportError(wrapped)` (R165). -/
  | transportError (wrapped : ε)
  /-- The error the block reports, by its `ERR` code (R143). -/
  | reported (code : BitVec 3)
  /-- The block's step did not answer a next state. It always does; nothing raises this. -/
  | blockStopped
  deriving DecidableEq, Repr

/-- What an accessor has done so far: the block as it stands, and the bus calls made, oldest first. -/
structure Session where
  block : State
  calls : List BusCall
  deriving DecidableEq, Repr

/-- An accessor: it ends with a value or an error, and with what it has done by then. -/
abbrev Accessor (ε α : Type) := Session → Except (SessionError ε) α × Session

/-- One action, then the next; "the first transport failure aborts the entire accessor" (R154), and so does an error
the block reports. -/
def Accessor.andThen {ε α β : Type} (x : Accessor ε α) (k : α → Accessor ε β) : Accessor ε β := fun w =>
  match x w with
  | (.ok a, w') => k a w'
  | (.error e, w') => (.error e, w')

/-- The accessor that ends with a value and does nothing. -/
def Accessor.give {ε α : Type} (a : α) : Accessor ε α := fun w => (.ok a, w)

/-- `BUS_ADDR` (00_scope.md R4, R141). -/
def busAddr : BitVec 7 := 0x40

/-- One transport call, blocking, never retried (R142, R154). -/
def busCall {ε : Type} (tr : Transport ε) (c : BusCall) : Accessor ε (Nat → Byte) := fun w =>
  match tr w.calls c with
  | .ok buf => (.ok buf, { w with calls := w.calls ++ [c] })
  | .error e => (.error (.transportError e), { w with calls := w.calls ++ [c] })

/-- A read transaction: the device command bytes out, `len` bytes in. -/
def busRead {ε : Type} (tr : Transport ε) (cmd : List Byte) (len : Nat) : Accessor ε (Nat → Byte) :=
  busCall tr (.writeThenRead busAddr cmd len)

/-- A write transaction: the command byte, then the new byte, in one `write` (R141; log 11). -/
def busWrite {ε : Type} (tr : Transport ε) (cmd b : Byte) : Accessor ε (Nat → Byte) :=
  busCall tr (.write busAddr [cmd, b])

/-- One frame to the block: the result is `RES` if `RV = 1`, else the error named by `ERR` (R143). -/
def blockCommand {ε : Type} (i : Instr) : Accessor ε Dword := fun w =>
  match step (w.block.present (encode i)) with
  | .next t => (if t.rv then .ok t.res else .error (.reported t.err), { w with block := t })
  | .fault _ => (.error .blockStopped, w)
  | .refused _ => (.error .blockStopped, w)

/-- Measure humidity: `0xE5`, 3 bytes, `DEC.RH` (R141, R143). DESIGN CHOICE (N14, log 14): the name and the type. -/
def humidity {ε : Type} (tr : Transport ε) : Accessor ε Dword :=
  (busRead tr [0xE5] 3).andThen fun b => blockCommand (.decRh (b 0) (b 1) (b 2))

/-- Measure temperature: `0xE3`, 3 bytes, `DEC.T` (R141, R143). -/
def temperature {ε : Type} (tr : Transport ε) : Accessor ε Dword :=
  (busRead tr [0xE3] 3).andThen fun b => blockCommand (.decT (b 0) (b 1) (b 2))

/-- Read temperature from the last humidity conversion: `0xE0`, 2 bytes, `DEC.TLH` (R141, R143). -/
def temperatureFromLastHumidity {ε : Type} (tr : Transport ε) : Accessor ε Dword :=
  (busRead tr [0xE0] 2).andThen fun b => blockCommand (.decTlh (b 0) (b 1))

/-- The 14-byte buffer of two transfers (R110, R144). -/
def assembleBuffer (a b : Nat → Byte) : SerialBuffer :=
  ⟨a 0, a 1, a 2, a 3, a 4, a 5, a 6, a 7, b 0, b 1, b 2, b 3, b 4, b 5⟩

/-- `serial_number()` (R144): group A, then group B, then `DEC.SN`. -/
def serialNumberAccessor {ε : Type} (tr : Transport ε) : Accessor ε Dword :=
  (busRead tr [0xFA, 0x0F] 8).andThen fun a =>
  (busRead tr [0xFC, 0xC9] 6).andThen fun b =>
  blockCommand (.decSn (assembleBuffer a b))

/-- Read user register: `0xE7`, 1 byte (R141). -/
def readUserRegister {ε : Type} (tr : Transport ε) : Accessor ε Byte :=
  (busRead tr [0xE7] 1).andThen fun b => .give (b 0)

/-- Read heater register: `0x11`, 1 byte (R141). -/
def readHeaterRegister {ε : Type} (tr : Transport ε) : Accessor ε Byte :=
  (busRead tr [0x11] 1).andThen fun b => .give (b 0)

/-- The resolution getter: the user register to `UR.GRES` (R141, R143). DESIGN CHOICE (N14, log 14): the name and the
type, the result being the pattern byte of `RES`. -/
def measurementResolution {ε : Type} (tr : Transport ε) : Accessor ε Dword :=
  (readUserRegister tr).andThen fun u => blockCommand (.urGres u)

/-- The heater-enable getter: the user register to `UR.GHTR` (R141, R143). DESIGN CHOICE (N14, log 14): the document
names no accessor for heater state and gives no signature; the model has this one for the enable flag (`0xE7`) and
`heaterLevelAccessor` for the level (`0x11`), since R143 allows an accessor one transaction. -/
def heaterEnabledAccessor {ε : Type} (tr : Transport ε) : Accessor ε Dword :=
  (readUserRegister tr).andThen fun u => blockCommand (.urGhtr u)

/-- The heater-level getter: the heater register to `HR.GLVL` (R141, R143). DESIGN CHOICE (N14, log 14): the name, the
type, and that it is apart from `heaterEnabledAccessor`. -/
def heaterLevelAccessor {ε : Type} (tr : Transport ε) : Accessor ε Dword :=
  (readHeaterRegister tr).andThen fun h => blockCommand (.hrGlvl h)

/-- `set_measurement_resolution(q)` (R150): read, `UR.SRES`, write `RES[7:0]`. -/
def setMeasurementResolution {ε : Type} (tr : Transport ε) (q : Resolution) : Accessor ε Unit :=
  (readUserRegister tr).andThen fun u =>
  (blockCommand (.urSres u (patternOf q))).andThen fun v =>
  (busWrite tr 0xE6 (lowByte v)).andThen fun _ => .give ()

/-- `set_heater` (R151, R152): without a level, the enable bit is cleared (log 11); with one, the level test comes
before any transport call, then both reads, both setters, and two independent writes, user register first. -/
def setHeater {ε : Type} (tr : Transport ε) : Option Byte → Accessor ε Unit
  | none =>
    (readUserRegister tr).andThen fun u =>
    (blockCommand (.urShtr u 0x00)).andThen fun v =>
    (busWrite tr 0xE6 (lowByte v)).andThen fun _ => .give ()
  | some level =>
    (blockCommand (.hrSlvl 0x00 level)).andThen fun _ =>
    (readUserRegister tr).andThen fun u =>
    (readHeaterRegister tr).andThen fun h =>
    (blockCommand (.urShtr u 0x01)).andThen fun u' =>
    (blockCommand (.hrSlvl h level)).andThen fun h' =>
    (busWrite tr 0xE6 (lowByte u')).andThen fun _ =>
    (busWrite tr 0x51 (lowByte h')).andThen fun _ => .give ()

end Sys2Proof.Machine
end

