-- ==== Sys2Proof/Safety.lean ====
section
/-! DEFINITION. The words the statements are made of: how a command ends, what the host can see of a state, and the
invariant of the status register; and the polynomial reading of the checksum. -/

namespace Sys2Proof.Machine

open Host

/-- The command ended with `raise` of the error of this `ERR` code (60_exceptions.md R168) from `s`, having changed
nothing else of the block: `RES` may hold any value, and the model's count of draws may have moved. -/
def FailsWith (o : Outcome State Fault Refusal) (s : State) (code : BitVec 3) : Prop :=
  ∃ v n, o = .next { s with err := code, rv := false, res := v, draws := n }

/-- The block's registers look alike to a host that uses `RES` only when `RV = 1` (R12, R187). -/
def State.LooksLike (s t : State) : Prop :=
  s.crc = t.crc ∧ s.err = t.err ∧ s.rv = t.rv ∧ (s.rv = true → s.res = t.res)

/-- The status register is legal (R13): `ERR` is 0 to 5, and `RV = 1` only with `ERR = 0`. `RV = 0` with `ERR = 0` is
the state after reset. -/
def State.StatusInv (s : State) : Prop := s.err.toNat ≤ 5 ∧ (s.rv = true → s.err = 0)

/-- The commands that write `CRC` (R10). -/
def writesCrc : Instr → Bool
  | .crcClr => true
  | .crcByte _ => true
  | .crcSpan _ => true
  | .crcChk _ => false
  | .decRh _ _ _ => false
  | .decT _ _ _ => false
  | .decTlh _ _ => false
  | .decSn _ => false
  | .urGres _ => false
  | .urSres _ _ => false
  | .urGhtr _ => false
  | .urShtr _ _ => false
  | .hrGlvl _ => false
  | .hrSlvl _ _ => false

/-- The commands that read `CRC` (R10). -/
def readsCrc : Instr → Bool
  | .crcByte _ => true
  | .crcSpan _ => true
  | .crcChk _ => true
  | .crcClr => false
  | .decRh _ _ _ => false
  | .decT _ _ _ => false
  | .decTlh _ _ => false
  | .decSn _ => false
  | .urGres _ => false
  | .urSres _ _ => false
  | .urGhtr _ => false
  | .urShtr _ _ => false
  | .hrGlvl _ => false
  | .hrSlvl _ _ => false

/-- The moves that may change `CRC`: the reset input and the frames of the commands that write it (R10). -/
def HostMove.mayWriteCrc (cfg : Config) : HostMove → Bool
  | .command f =>
    match decode cfg f with
    | .ok i => writesCrc i
    | .error _ => false
  | .readRes => false
  | .reset => true

/-! R76 (e): the checksum read as polynomial arithmetic over GF(2). No meaning of a command uses these. -/

/-- The divisor of R76 (e): `x^8 + x^5 + x^4 + 1`; `CRC_POLY` is its part below `x^8`. -/
noncomputable def crcPolynomial : Polynomial (ZMod 2) :=
  Polynomial.X ^ 8 + Polynomial.X ^ 5 + Polynomial.X ^ 4 + 1

/-- A byte as a polynomial, bit `i` at `x^i`. -/
noncomputable def bytePoly (b : Byte) : Polynomial (ZMod 2) :=
  ∑ i ∈ Finset.range 8, if b.getLsbD i then Polynomial.X ^ i else 0

/-- A message as a polynomial, most significant bit first: the first byte's bit 7 is the leading term. -/
noncomputable def spanPoly (bs : List Byte) : Polynomial (ZMod 2) :=
  bs.foldl (fun p b => p * Polynomial.X ^ 8 + bytePoly b) 0

end Sys2Proof.Machine
end

