-- ==== Sys2Proof/Certificates/Slice0/Obligations.lean ====
section
/-! DEFINITION. The statements for the provers, from the numbered rules of spec/. -/

open Sys2Proof Sys2Proof.Machine Host

/-! ## Encoding -/

/-- R51, R52, R60: frames written out from the spec's encoding decode to the commands they stand for. Sanity. -/
def Obligations.WrittenOutFramesDecode : Prop :=
  ∀ cfg : Config,
    decode cfg [0x00] = .ok .crcClr ∧
    decode cfg [0x01, 0x84] = .ok (.crcByte 0x84) ∧
    decode cfg [0x02, 0x84, 0x2c, 0xf9, 0xb1] = .ok (.crcSpan [0x84, 0x2c, 0xf9, 0xb1]) ∧
    decode cfg [0x10, 0xa1, 0xa6, 0x51] = .ok (.decRh 0xa1 0xa6 0x51) ∧
    decode cfg [0x12, 0x66, 0x44] = .ok (.decTlh 0x66 0x44) ∧
    decode cfg [0x13, 0x84, 0xbe, 0x2c, 0x5b, 0xf9, 0x9e, 0xb1, 0xa8, 0x15, 0xff, 0xb5, 0xff, 0xff, 0xcb] =
      .ok (.decSn ⟨0x84, 0xbe, 0x2c, 0x5b, 0xf9, 0x9e, 0xb1, 0xa8, 0x15, 0xff, 0xb5, 0xff, 0xff, 0xcb⟩) ∧
    decode cfg [0x21, 0x3a, 0x81] = .ok (.urSres 0x3a 0x81) ∧
    decode cfg [0x25, 0xa7, 0x05] = .ok (.hrSlvl 0xa7 0x05)

/-- R50, R51, R53: no bit of an encoding is dropped, for every command, operand and setting of the parameters. -/
def Obligations.DecodeInvertsEncode : Prop :=
  ∀ (cfg : Config) (i : Instr), i.wellFormed cfg = true → decode cfg (encode i) = .ok i

/-- R57, R58: a frame that decodes is the one spelling of its command, and the command is well formed. -/
def Obligations.EncodeInvertsDecode : Prop :=
  ∀ (cfg : Config) (f : Frame) (i : Instr), decode cfg f = .ok i → i.wellFormed cfg = true ∧ encode i = f

/-- R64: the decoder accepts a frame exactly if it selects a row of opcode_table.json; the row is then one, and it is
the decoded command's. -/
def Obligations.DecoderAgreesWithOpcodeTable : Prop :=
  ∀ (cfg : Config) (f : Frame),
    (∃ i, decode cfg f = .ok i ∧ (selectedRows cfg f).map OpcodeRow.mnemonic = [i.opcode.mnemonic]) ∨
    ((∃ e, decode cfg f = .error e) ∧ selectedRows cfg f = [])

/-! ## Steps of the port -/

/-- R41, R50: the step on a frame that decodes is the command's meaning, with the frame taken off the port. The list
of waiting moves is the model's own (log 1). -/
def Obligations.StepRunsDecodedCommand : Prop :=
  ∀ (s : State) (f : Frame) (rest : List HostMove) (i : Instr),
    s.port = .command f :: rest → decode s.cfg f = .ok i → step s = exec i { s with port := rest }

/-- R56: an empty frame, an over-long frame, an unknown opcode byte and a known opcode byte with the wrong length end
with `ERR = 4`, `RV = 0`, and nothing else changed. -/
def Obligations.IllegalFrameRaisesIllegalCommand : Prop :=
  ∀ (s : State) (f : Frame) (rest : List HostMove),
    s.port = .command f :: rest →
    (f = [] ∨ s.cfg.maxFrame < f.length ∨
      (∃ op args, f = op :: args ∧ ∀ row ∈ opcodeTable, row.pattern ≠ op) ∨
      (∃ op args row, f = op :: args ∧ row ∈ opcodeTable ∧ row.pattern = op ∧
        row.length.admits s.cfg f.length = false)) →
    FailsWith (step s) { s with port := rest } 4

/-- R180: the reset input gives the reset state of R27, and the block then waits for the next frame. That waiting moves
and parameters are kept is the model's choice (log 1, log 7). -/
def Obligations.ResetInputGivesResetState : Prop :=
  ∀ (s : State) (rest : List HostMove), s.port = .reset :: rest →
    ∃ v n, step s = .next { s with crc := 0x00, err := 0, rv := false, res := v, draws := n, port := rest } ∧
      ∀ t, step s = .next t → t.port = [] → step t = .next t

/-- R27: the registers after reset: `CRC = 0x00`, `STATUS = 0x00`, and `RES` with no defined value. -/
def Obligations.ResetRegisters : Prop :=
  State.reset.crc = 0x00 ∧ State.reset.err = 0 ∧ State.reset.rv = false ∧ State.reset.status = 0x00 ∧
    State.reset.result = none

/-- R39, U1: a host read of `RES` changes no register the host can rely on, and nothing at all while `RV = 1`. The move
itself is the model's (log 6). -/
def Obligations.HostReadHasNoSideEffect : Prop :=
  ∀ (s : State) (rest : List HostMove), s.port = .readRes :: rest →
    (s.rv = true → step s = .next { s with port := rest }) ∧
    (s.rv = false → ∃ v n, step s = .next { s with res := v, draws := n, port := rest })

/-- R191, R157: every step from every state answers a next state: the block refuses nothing and never stops. -/
def Obligations.EveryStepAnswersNext : Prop := ∀ s : State, ∃ t, step s = .next t

/-! ## The Checksum Engine -/

/-- R72. -/
def Obligations.CrcClrCreatesAccumulator : Prop :=
  (encode .crcClr = [0x00]) ∧
  (∀ s : State, exec .crcClr s = .next { s with crc := 0x00, res := 0, rv := true, err := 0 })

/-- R73. -/
def Obligations.CrcByteFoldsOneByte : Prop :=
  (∀ b : Byte, encode (.crcByte b) = [0x01, b]) ∧
  (∀ (b : Byte) (s : State),
    exec (.crcByte b) s =
      .next { s with crc := crc8Step s.crc b, res := (crc8Step s.crc b).setWidth 64, rv := true, err := 0 })

/-- R74: for every length of the span, the empty one among them; and a span of at least one byte leaves what the same
bytes leave one by one. R74 gives spans up to `MAX_FRAME - 1` bytes; that `exec` runs a longer one the same way is the
model's choice (log 13), and no step does. -/
def Obligations.CrcSpanFoldsSpan : Prop :=
  (∀ ds : List Byte, encode (.crcSpan ds) = 0x02 :: ds) ∧
  (∀ (ds : List Byte) (s : State),
    exec (.crcSpan ds) s =
      .next { s with crc := crc8 s.crc ds, res := (crc8 s.crc ds).setWidth 64, rv := true, err := 0 } ∧
    (ds ≠ [] → exec (.crcSpan ds) s =
      ds.foldl (fun (o : Outcome State Fault Refusal) d =>
        match o with
        | .next t => exec (.crcByte d) t
        | .fault r => .fault r
        | .refused r => .refused r) (.next s)))

/-- R75: equal bytes end with `done`, unequal ones with `ChecksumFailure`; `CRC` is kept in both. -/
def Obligations.CrcChkCompares : Prop :=
  (∀ c : Byte, encode (.crcChk c) = [0x03, c]) ∧
  (∀ (c : Byte) (s : State),
    (s.crc = c → exec (.crcChk c) s = .next { s with res := s.crc.setWidth 64, rv := true, err := 0 }) ∧
    (s.crc ≠ c → FailsWith (exec (.crcChk c) s) s 1))

/-- R70, R71: `crc8_step` is eight rounds of "if the high bit is set, shift and XOR with `0x31`, else shift", and
`crc8` folds it over the span in list order. -/
def Obligations.CrcFunctionsFollowAlgorithm : Prop :=
  (∀ c b : Byte,
    crc8Step c b =
      (fun t : Byte => if t.getLsbD 7 then (t <<< 1) ^^^ 0x31#8 else t <<< 1)^[8] (c ^^^ b)) ∧
  (∀ c : Byte, crc8 c [] = c) ∧
  (∀ (c b : Byte) (bs : List Byte), crc8 c (b :: bs) = crc8 (crc8Step c b) bs)

/-- R76 (b): `crc8_step(c, b)` is the table at `c xor b`, the table is a permutation of the bytes, and `crc8_step` is a
bijection in each argument. -/
def Obligations.CrcStepIsBijective : Prop :=
  (∀ c b : Byte, crc8Step c b = crcTable (c ^^^ b)) ∧ Function.Bijective crcTable ∧
  (∀ b : Byte, Function.Bijective fun c => crc8Step c b) ∧ (∀ c : Byte, Function.Bijective (crc8Step c))

/-- R76 (c): linearity over XOR, of a step and of spans of one length; zeros stay zero. -/
def Obligations.CrcIsLinear : Prop :=
  crc8Step 0x00 0x00 = 0x00 ∧
  (∀ c1 c2 b1 b2 : Byte, crc8Step (c1 ^^^ c2) (b1 ^^^ b2) = crc8Step c1 b1 ^^^ crc8Step c2 b2) ∧
  (∀ (c1 c2 : Byte) (xs ys : List Byte), xs.length = ys.length →
    crc8 (c1 ^^^ c2) (List.zipWith (fun x y : Byte => x ^^^ y) xs ys) = crc8 c1 xs ^^^ crc8 c2 ys) ∧
  (∀ n : Nat, crc8 0x00 (List.replicate n 0x00) = 0x00)

/-- R76 (d): folding a correct trailing byte gives zero, and so does folding the accumulator into itself; the test
for a zero residue is the comparison the block makes (R78). -/
def Obligations.ZeroResidueIsTheCheck : Prop :=
  (∀ c : Byte, crc8Step c c = 0x00) ∧
  (∀ xs : List Byte, crc8 0x00 (xs ++ [crc8 0x00 xs]) = 0x00) ∧
  (∀ (xs : List Byte) (k : Byte), (check xs k = true ↔ crc8 0x00 xs = k) ∧
    (check xs k = true ↔ crc8 0x00 (xs ++ [k]) = 0x00) ∧ residueCheck xs k = check xs k)

/-- R76 (e): the divisor is monic of degree 8, and the checksum of a message is the remainder of the message times
`x^8` by it, of degree below 8. -/
def Obligations.CrcIsPolynomialRemainder : Prop :=
  crcPolynomial.Monic ∧ crcPolynomial.natDegree = 8 ∧
  ∀ xs : List Byte,
    (bytePoly (crc8 0x00 xs)).degree < 8 ∧
    (spanPoly xs * Polynomial.X ^ 8).modByMonic crcPolynomial = bytePoly (crc8 0x00 xs)

/-- R76 (a): the accumulator persists: a message split in two `CRC.SPAN` commands anywhere ends as the message in one
command. Where the message is longer than a frame carries, the one command is one that only `exec` runs, the model's
choice (log 13): its frame is `IllegalCommand` (R56). -/
def Obligations.SplitSpanChains : Prop :=
  (∀ (c : Byte) (xs ys : List Byte), crc8 c (xs ++ ys) = crc8 (crc8 c xs) ys) ∧
  ∀ (xs ys : List Byte) (s : State),
    ∃ t, exec (.crcSpan xs) s = .next t ∧ exec (.crcSpan ys) t = exec (.crcSpan (xs ++ ys)) s

/-! ## The measurement decoders -/

/-- R95, with R90, R91, R33: the clamped humidity, or `ChecksumFailure`; `CRC` is kept. -/
def Obligations.DecRhDecodesHumidity : Prop :=
  (∀ m l c : Byte, encode (.decRh m l c) = [0x10, m, l, c]) ∧
  (∀ (m l c : Byte) (s : State),
    (crc8 0x00 [m, l] = c →
      exec (.decRh m l c) s =
        .next { s with
          res := BitVec.ofInt 64
            (min 10000 (max 0 (((12500 * (m.toNat * 256 + l.toNat) / 65536 : Nat) : Int) - 600)))
          rv := true, err := 0 }) ∧
    (crc8 0x00 [m, l] ≠ c → FailsWith (exec (.decRh m l c) s) s 1))

/-- R96, with R92, R33: the checksum test first, then the sentinel test if the parameter says so, then the signed
temperature; `CRC` is kept. For both settings of the parameter. -/
def Obligations.DecTDecodesTemperature : Prop :=
  (∀ m l c : Byte, encode (.decT m l c) = [0x11, m, l, c]) ∧
  (∀ (m l c : Byte) (s : State),
    (crc8 0x00 [m, l] ≠ c → FailsWith (exec (.decT m l c) s) s 1) ∧
    (crc8 0x00 [m, l] = c → s.cfg.tSentinelOnChecked = true → m = 0x00 → l = 0x00 →
      FailsWith (exec (.decT m l c) s) s 2) ∧
    (crc8 0x00 [m, l] = c → (s.cfg.tSentinelOnChecked = false ∨ m ≠ 0x00 ∨ l ≠ 0x00) →
      exec (.decT m l c) s =
        .next { s with
          res := BitVec.ofInt 64 (((17572 * (m.toNat * 256 + l.toNat) / 65536 : Nat) : Int) - 4685)
          rv := true, err := 0 }))

/-- R97, with R92, R33: the sentinel, or the signed temperature; `CRC` is kept and no checksum is computed. -/
def Obligations.DecTlhDecodesTemperature : Prop :=
  (∀ m l : Byte, encode (.decTlh m l) = [0x12, m, l]) ∧
  (∀ (m l : Byte) (s : State),
    (m = 0x00 → l = 0x00 → FailsWith (exec (.decTlh m l) s) s 2) ∧
    (m ≠ 0x00 ∨ l ≠ 0x00 →
      exec (.decTlh m l) s =
        .next { s with
          res := BitVec.ofInt 64 (((17572 * (m.toNat * 256 + l.toNat) / 65536 : Nat) : Int) - 4685)
          rv := true, err := 0 }))

/-- R90, R91: the formula, its range and growth, and where the clamp acts. -/
def Obligations.HumidityRanges : Prop :=
  (∀ raw : Nat, rhRawValue raw = ((12500 * raw / 65536 : Nat) : Int) - 600) ∧
  (∀ raw : Nat, rhValue raw = min 10000 (max 0 (rhRawValue raw))) ∧
  (∀ raw raw' : Nat, raw ≤ raw' → rhRawValue raw ≤ rhRawValue raw') ∧
  rhRawValue 0 = -600 ∧ rhRawValue 65535 = 11899 ∧
  (∀ raw : Nat, raw ≤ 3145 → rhRawValue raw < 0 ∧ rhValue raw = 0) ∧
  (∀ raw : Nat, 3146 ≤ raw → raw ≤ 55579 → rhValue raw = rhRawValue raw) ∧
  (∀ raw : Nat, 55580 ≤ raw → raw ≤ 65535 → 10000 < rhRawValue raw ∧ rhValue raw = 10000)

/-- R92: the formula of the temperature, its range, growth and sign. -/
def Obligations.TemperatureRanges : Prop :=
  (∀ raw : Nat, tValue raw = ((17572 * raw / 65536 : Nat) : Int) - 4685) ∧
  (∀ raw raw' : Nat, raw ≤ raw' → tValue raw ≤ tValue raw') ∧
  tValue 0 = -4685 ∧ tValue 1 = -4685 ∧ tValue 65535 = 12886 ∧
  (∀ raw : Nat, raw ≤ 17473 → tValue raw < 0) ∧
  (∀ raw : Nat, 17474 ≤ raw → raw ≤ 17476 → tValue raw = 0) ∧
  (∀ raw : Nat, 17477 ≤ raw → 0 < tValue raw)

/-- R91: "callers must never observe out-of-range values": whatever the frame, a valid result of `DEC.RH` is 0 to
10000. -/
def Obligations.HumidityResultInRange : Prop :=
  ∀ (m l c : Byte) (s t : State), exec (.decRh m l c) s = .next t → t.rv = true → t.res.toNat ≤ 10000

/-- R93: which widths of the product compute the model's two formulas, the product wrapped at the width and shifted
right by 16: from 30 bits on for humidity, from 31 bits on for temperature, and no fewer. And subtracting before a
truncating division gives one more wherever the numerator is negative and no multiple of 65536, `raw = 1` among them. -/
def Obligations.ThirtyOneBitMultiplierSuffices : Prop :=
  (∀ w : Nat, 30 ≤ w ↔ ∀ raw : Nat, raw ≤ 65535 →
    rhRawValue raw = (((BitVec.ofNat w 12500 * BitVec.ofNat w raw) >>> 16).toNat : Int) - 600) ∧
  (∀ w : Nat, 31 ≤ w ↔ ∀ raw : Nat, raw ≤ 65535 →
    tValue raw = (((BitVec.ofNat w 17572 * BitVec.ofNat w raw) >>> 16).toNat : Int) - 4685) ∧
  (∀ raw : Nat, (17572 * raw - 4685 * 65536 : Int) < 0 → ¬(65536 : Int) ∣ 17572 * raw - 4685 * 65536 →
    (17572 * raw - 4685 * 65536 : Int).tdiv 65536 = tValue raw + 1) ∧
  tValue 1 = -4685 ∧ (17572 * 1 - 4685 * 65536 : Int).tdiv 65536 = -4684

/-- R98: a wrong trailing byte, and a change of exactly one data byte, is caught by both checked decoders; a change of
both data bytes may not be. -/
def Obligations.CorruptedSampleIsCaught : Prop :=
  (∀ (m l c : Byte) (s : State), c ≠ crc8 0x00 [m, l] →
    FailsWith (exec (.decRh m l c) s) s 1 ∧ FailsWith (exec (.decT m l c) s) s 1) ∧
  (∀ (m l m' : Byte) (s : State), m' ≠ m →
    FailsWith (exec (.decRh m' l (crc8 0x00 [m, l])) s) s 1 ∧
    FailsWith (exec (.decT m' l (crc8 0x00 [m, l])) s) s 1) ∧
  (∀ (m l l' : Byte) (s : State), l' ≠ l →
    FailsWith (exec (.decRh m l' (crc8 0x00 [m, l])) s) s 1 ∧
    FailsWith (exec (.decT m l' (crc8 0x00 [m, l])) s) s 1) ∧
  (∃ m l m' l' : Byte, m' ≠ m ∧ l' ≠ l ∧ crc8 0x00 [m', l'] = crc8 0x00 [m, l])

/-! ## The serial number decoder -/

/-- R112, with R111: the identifier only if both groups' checksums are right, else `ChecksumFailure`; `CRC` is kept. -/
def Obligations.DecSnDecodesSerialNumber : Prop :=
  (∀ b : SerialBuffer, encode (.decSn b) =
    [0x13, b.s0, b.s1, b.s2, b.s3, b.s4, b.s5, b.s6, b.s7, b.s8, b.s9, b.s10, b.s11, b.s12, b.s13]) ∧
  (∀ (b : SerialBuffer) (s : State),
    (crc8 0x00 [b.s0, b.s2, b.s4, b.s6] = b.s7 → crc8 0x00 [b.s8, b.s9, b.s11, b.s12] = b.s13 →
      exec (.decSn b) s =
        .next { s with
          res := BitVec.ofNat 64
            (b.s0.toNat * 2 ^ 56 + b.s2.toNat * 2 ^ 48 + b.s4.toNat * 2 ^ 40 + b.s6.toNat * 2 ^ 32 +
             b.s8.toNat * 2 ^ 24 + b.s9.toNat * 2 ^ 16 + b.s11.toNat * 2 ^ 8 + b.s12.toNat)
          rv := true, err := 0 }) ∧
    (crc8 0x00 [b.s0, b.s2, b.s4, b.s6] ≠ b.s7 ∨ crc8 0x00 [b.s8, b.s9, b.s11, b.s12] ≠ b.s13 →
      FailsWith (exec (.decSn b) s) s 1))

/-- R34, R111, R21: the identifier's bits, most significant byte first: group A in the upper 32 bits, group B in the
lower 32. -/
def Obligations.SerialNumberBytesInOrder : Prop :=
  ∀ (b : SerialBuffer) (s t : State), exec (.decSn b) s = .next t → t.rv = true →
    t.res = (b.s0 ++ b.s2 ++ b.s4 ++ b.s6 ++ b.s8 ++ b.s9 ++ b.s11 ++ b.s12 : BitVec 64)

/-- R113: buffer bytes 1, 3, 5 and 10 are not checked: whatever they hold, `DEC.SN` completes alike, in `CRC`, in
`STATUS`, and in `RES` where `RV = 1`. -/
def Obligations.SerialChecksumBytesIgnored : Prop :=
  ∀ (b : SerialBuffer) (x1 x3 x5 x10 : Byte) (s : State), ∃ t t',
    exec (.decSn { b with s1 := x1, s3 := x3, s5 := x5, s10 := x10 }) s = .next t ∧
    exec (.decSn b) s = .next t' ∧ t.LooksLike t' ∧ t.port = t'.port ∧ t.cfg = t'.cfg

/-! ## The register codec -/

/-- R120: the pattern byte of the resolution, which is the document's map of the masked byte. -/
def Obligations.UrGresReadsResolution : Prop :=
  (∀ u : Byte, encode (.urGres u) = [0x20, u]) ∧
  (∀ (u : Byte) (s : State),
    exec (.urGres u) s = .next { s with res := (u &&& 0x81).setWidth 64, rv := true, err := 0 } ∧
    patternOf (resolution u) = u &&& 0x81)

/-- R121, R55 (a). -/
def Obligations.UrSresSetsResolution : Prop :=
  (∀ u r : Byte, encode (.urSres u r) = [0x21, u, r]) ∧
  (∀ (u r : Byte) (s : State),
    (r = 0x00 ∨ r = 0x01 ∨ r = 0x80 ∨ r = 0x81 →
      exec (.urSres u r) s = .next { s with res := ((u &&& 0x7e) ||| r).setWidth 64, rv := true, err := 0 }) ∧
    (¬(r = 0x00 ∨ r = 0x01 ∨ r = 0x80 ∨ r = 0x81) → FailsWith (exec (.urSres u r) s) s 5))

/-- R122. -/
def Obligations.UrGhtrReadsHeaterEnable : Prop :=
  (∀ u : Byte, encode (.urGhtr u) = [0x22, u]) ∧
  (∀ (u : Byte) (s : State),
    (u &&& 0x04 ≠ 0 → exec (.urGhtr u) s = .next { s with res := 1, rv := true, err := 0 }) ∧
    (u &&& 0x04 = 0 → exec (.urGhtr u) s = .next { s with res := 0, rv := true, err := 0 }))

/-- R123, R55 (b). -/
def Obligations.UrShtrSetsHeaterEnable : Prop :=
  (∀ u on : Byte, encode (.urShtr u on) = [0x23, u, on]) ∧
  (∀ (u on : Byte) (s : State),
    (on = 0x01 →
      exec (.urShtr u on) s = .next { s with res := ((u &&& 0xfb) ||| 0x04).setWidth 64, rv := true, err := 0 }) ∧
    (on = 0x00 → exec (.urShtr u on) s = .next { s with res := (u &&& 0xfb).setWidth 64, rv := true, err := 0 }) ∧
    (on ≠ 0x00 → on ≠ 0x01 → FailsWith (exec (.urShtr u on) s) s 5))

/-- R124. -/
def Obligations.HrGlvlReadsLevel : Prop :=
  (∀ h : Byte, encode (.hrGlvl h) = [0x24, h]) ∧
  (∀ (h : Byte) (s : State),
    exec (.hrGlvl h) s = .next { s with res := (h &&& 0x0f).setWidth 64, rv := true, err := 0 })

/-- R125: legal up to `0x0f`, `InvalidHeaterLevel` above, whatever `h` is. -/
def Obligations.HrSlvlSetsLevel : Prop :=
  (∀ h v : Byte, encode (.hrSlvl h v) = [0x25, h, v]) ∧
  (∀ (h v : Byte) (s : State),
    (v ≤ 0x0f → exec (.hrSlvl h v) s = .next { s with res := ((h &&& 0xf0) ||| v).setWidth 64, rv := true, err := 0 }) ∧
    (0x0f < v → FailsWith (exec (.hrSlvl h v) s) s 3))

/-- R127: the setters and getters round trip through `RES[7:0]`, and a setter changes no bit outside its field. -/
def Obligations.SettersRoundTrip : Prop :=
  (∀ (u : Byte) (q : Resolution) (s : State), ∃ t, exec (.urSres u (patternOf q)) s = .next t ∧
    exec (.urGres (lowByte t.res)) t = .next { t with res := (patternOf q).setWidth 64, rv := true, err := 0 } ∧
    lowByte t.res &&& 0x7e = u &&& 0x7e) ∧
  (∀ (h v : Byte) (s : State), v ≤ 0x0f → ∃ t, exec (.hrSlvl h v) s = .next t ∧
    exec (.hrGlvl (lowByte t.res)) t = .next { t with res := v.setWidth 64, rv := true, err := 0 } ∧
    lowByte t.res &&& 0xf0 = h &&& 0xf0)

/-- R128: the heater flag round trips and no other bit changes; a getter's value put back gives the byte back; the two
UserRegister setters commute. -/
def Obligations.CodecIdentities : Prop :=
  (∀ (u : Byte) (b : Bool), heaterEnabled (setHeaterEnabled u b) = b ∧
    ∀ k : Nat, k ≠ 2 → (setHeaterEnabled u b).getLsbD k = u.getLsbD k) ∧
  (∀ u : Byte, setResolution u (resolution u) = u) ∧
  (∀ u : Byte, setHeaterEnabled u (heaterEnabled u) = u) ∧
  (∀ h : Byte, setHeaterLevel h (heaterLevel h) = h) ∧
  (∀ (u : Byte) (q : Resolution) (b : Bool),
    setHeaterEnabled (setResolution u q) b = setResolution (setHeaterEnabled u b) q)

/-- R129: no command changes a reserved bit between its register operand and its result (UserRegister bits 1, 3, 4, 5,
6, HeaterRegister bits 4 to 7), and no getter reads one. -/
def Obligations.ReservedBitsPassThrough : Prop :=
  (∀ (u r : Byte) (s t : State), exec (.urSres u r) s = .next t → t.rv = true →
    ∀ k ∈ [1, 3, 4, 5, 6], t.res.getLsbD k = u.getLsbD k) ∧
  (∀ (u on : Byte) (s t : State), exec (.urShtr u on) s = .next t → t.rv = true →
    ∀ k ∈ [1, 3, 4, 5, 6], t.res.getLsbD k = u.getLsbD k) ∧
  (∀ (h v : Byte) (s t : State), exec (.hrSlvl h v) s = .next t → t.rv = true →
    ∀ k ∈ [4, 5, 6, 7], t.res.getLsbD k = h.getLsbD k) ∧
  (∀ (u x : Byte) (s : State),
    exec (.urGres ((u &&& 0x85) ||| (x &&& 0x7a))) s = exec (.urGres u) s ∧
    exec (.urGhtr ((u &&& 0x85) ||| (x &&& 0x7a))) s = exec (.urGhtr u) s) ∧
  (∀ (h x : Byte) (s : State), exec (.hrGlvl ((h &&& 0x0f) ||| (x &&& 0xf0))) s = exec (.hrGlvl h) s)

/-! ## The whole machine -/

/-- R15, R168: a frame, legal or not, ends exactly one way: with `done`, or with `raise` of an error of the block, after
which `CRC` and everything else is as it was. -/
def Obligations.FrameEndsDoneOrRaise : Prop :=
  ∀ (s : State) (f : Frame) (rest : List HostMove), s.port = .command f :: rest →
    ((∃ c v, step s = .next { s with crc := c, res := v, rv := true, err := 0, port := rest }) ∧
      ∀ code, ¬FailsWith (step s) { s with port := rest } code) ∨
    ∃ code : BitVec 3, 1 ≤ code.toNat ∧ code.toNat ≤ 5 ∧ FailsWith (step s) { s with port := rest } code

/-- R13: bits 7 to 4 of `STATUS` are zero, bit 3 is `RV`, bits 2 to 0 are `ERR`; after every command `RV = 1` exactly
when `ERR = 0`, and `ERR` is 0 to 5; after reset both are 0. -/
def Obligations.StatusRegister : Prop :=
  (∀ s : State, s.status.extractLsb' 4 4 = 0#4 ∧ s.status.getLsbD 3 = s.rv ∧ s.status.extractLsb' 0 3 = s.err) ∧
  (∀ (s t : State) (f : Frame) (rest : List HostMove), s.port = .command f :: rest → step s = .next t →
    t.err.toNat ≤ 5 ∧ (t.rv = true ↔ t.err = 0)) ∧
  (∀ (s t : State) (rest : List HostMove), s.port = .reset :: rest → step s = .next t → t.rv = false ∧ t.err = 0) ∧
  State.reset.rv = false ∧ State.reset.err = 0

/-- R13: the status register stays legal: every step, whatever the host does, keeps it. -/
def Obligations.StepKeepsStatusLegal : Prop :=
  ∀ s t : State, s.StatusInv → step s = .next t → t.StatusInv

/-- R13, R27: the status register is legal after reset. -/
def Obligations.ResetStatusLegal : Prop := State.reset.StatusInv

/-- R10: `CRC` is written only by `CRC.CLR`, `CRC.BYTE`, `CRC.SPAN` and reset. -/
def Obligations.CrcWrittenOnlyByItsWriters : Prop :=
  ∀ s t : State, (∀ m rest, s.port = m :: rest → m.mayWriteCrc s.cfg = false) → step s = .next t → t.crc = s.crc

/-- R10, R11: a command that neither reads nor writes `CRC` leaves it, and does the same to `STATUS`, and to `RES` where
`RV = 1`, whatever `CRC` holds. -/
def Obligations.OtherCommandsDoNotTouchCrc : Prop :=
  ∀ (i : Instr) (s t : State) (c : Byte), readsCrc i = false → writesCrc i = false → exec i s = .next t →
    t.crc = s.crc ∧ ∃ t', exec i { s with crc := c } = .next t' ∧ t'.LooksLike { t with crc := c } ∧
      t'.port = t.port ∧ t'.cfg = t.cfg

/-- R160 to R163: which command raises which error. -/
def Obligations.ErrorsComeFromTheirCommands : Prop :=
  ∀ (i : Instr) (s : State) (code : BitVec 3), FailsWith (exec i s) s code →
    (code = 1 ∧ ((∃ c, i = .crcChk c) ∨ (∃ m l c, i = .decRh m l c) ∨ (∃ m l c, i = .decT m l c) ∨ ∃ b, i = .decSn b)) ∨
    (code = 2 ∧ (i = .decTlh 0x00 0x00 ∨ (s.cfg.tSentinelOnChecked = true ∧ i = .decT 0x00 0x00 0x00))) ∨
    (code = 3 ∧ ∃ h v, i = .hrSlvl h v ∧ 0x0f < v) ∨
    (code = 5 ∧ ((∃ u r, i = .urSres u r) ∨ ∃ u on, i = .urShtr u on) ∧ i.operandsLegal = false)

/-- R14: `ERR` and `RV` are not sticky: what a frame leaves does not depend on what the last command left in `RES`,
`ERR` and `RV`. -/
def Obligations.StatusIsNotSticky : Prop :=
  ∀ (f : Frame) (s t : State) (rest rest' : List HostMove), s.crc = t.crc → s.cfg = t.cfg →
    s.port = .command f :: rest → t.port = .command f :: rest' →
    ∃ s' t', step s = .next s' ∧ step t = .next t' ∧ s'.LooksLike t'

/-- R39: every command but `CRC.BYTE` and a non-empty `CRC.SPAN` is idempotent, up to the unspecified `RES`. -/
def Obligations.IdempotentCommands : Prop :=
  ∀ (i : Instr) (s t : State), (∀ b, i ≠ .crcByte b) → (∀ ds, i = .crcSpan ds → ds = []) → exec i s = .next t →
    ∃ t', exec i t = .next t' ∧ t.LooksLike t'

/-- U1, R187: an unspecified `RES` never influences anything: two machines that look alike, given the same moves, look
alike for ever. The count of draws and the list of waiting moves are the model's own (log 3, log 1). -/
def Obligations.UnspecifiedResNeverObserved : Prop :=
  ∀ (n : Nat) (s t : State), s.LooksLike t → s.port = t.port → s.cfg = t.cfg →
    ∃ s' t', core.run n s = .next s' ∧ core.run n t = .next t' ∧ s'.LooksLike t'

/-- R42: the state after a sequence of frames is the fold of the command step over the sequence. The list of waiting
frames is the model's choice (log 1), and so is that both sides draw an unspecified `RES` by one count (log 3). -/
def Obligations.SequenceIsFoldOfSteps : Prop :=
  ∀ (fs : List Frame) (s : State),
    core.run fs.length { s with port := fs.map .command } =
      fs.foldl (fun (o : Outcome State Fault Refusal) f =>
        match o with
        | .next t => step { t with port := [.command f] }
        | .fault r => .fault r
        | .refused r => .refused r) (.next { s with port := [] })

/-- R188: moves that are not writers of `CRC` may be interleaved with any sequence: `CRC` ends as if they had been left
out. The list of waiting moves is the model's choice (log 1). -/
def Obligations.InterleavedMovesKeepCrc : Prop :=
  ∀ (ms : List HostMove) (s : State),
    ∃ t t', core.run ms.length { s with port := ms } = .next t ∧
      core.run (ms.filter (HostMove.mayWriteCrc s.cfg)).length
        { s with port := ms.filter (HostMove.mayWriteCrc s.cfg) } = .next t' ∧
      t.crc = t'.crc

/-- R182: a sequence of at least one frame from the reset state ends as the same sequence after `CRC.CLR`, for every
setting of the parameters; and a `CRC.SPAN xs` first after reset returns `crc8(0x00, xs)`. The list of waiting frames is
the model's choice (log 1), and so is that `exec` runs a span longer than a frame carries (log 13). -/
def Obligations.ResetServesAsFreshAccumulator : Prop :=
  (∀ (cfg : Config) (f : Frame) (fs : List Frame),
    ∃ t t', core.run (fs.length + 1) { State.reset with cfg := cfg, port := (f :: fs).map .command } = .next t ∧
      core.run (fs.length + 2)
        { State.reset with cfg := cfg, port := .command [0x00] :: (f :: fs).map .command } = .next t' ∧
      t.LooksLike t') ∧
  (∀ xs : List Byte, ∃ t, exec (.crcSpan xs) State.reset = .next t ∧ t.result = some ((crc8 0x00 xs).setWidth 64))

/-- R61: the pseudo-commands: `CRC.OF` and `CRC.VERIFY` make the document's whole validation from any state, and
`CRC.RD` reads `CRC` without changing it. The list of waiting frames is the model's choice (log 1). -/
def Obligations.PseudoCommandsValidate : Prop :=
  (∀ (ds : List Byte) (s : State), ds.length + 1 ≤ s.cfg.maxFrame →
    core.run 2 { s with port := commandMoves (Pseudo.expand (.crcOf ds)) } =
      .next { s with crc := crc8 0x00 ds, res := (crc8 0x00 ds).setWidth 64, rv := true, err := 0, port := [] }) ∧
  (∀ (ds : List Byte) (c : Byte) (s : State), ds.length + 1 ≤ s.cfg.maxFrame →
    ∃ t, core.run 3 { s with port := commandMoves (Pseudo.expand (.crcVerify ds c)) } = .next t ∧
      t.crc = crc8 0x00 ds ∧ (t.rv = true ↔ crc8 0x00 ds = c) ∧ (crc8 0x00 ds ≠ c → t.err = 1)) ∧
  (∀ s : State, core.run 1 { s with port := commandMoves (Pseudo.expand .crcRd) } =
    .next { s with res := s.crc.setWidth 64, rv := true, err := 0, port := [] })

/-! ## The host's Sensor Session (software over the block, 44_host_session.md) -/

/-- R163, R152, R190: an illegal level ends `set_heater` before any transport call, whatever the transport. -/
def Obligations.IllegalLevelMakesNoBusCall : Prop :=
  ∀ (ε : Type) (tr : Transport ε) (level : Byte) (w : Session), 0x0f < level →
    ∃ w', setHeater tr (some level) w = (.error (.reported 3), w') ∧ w'.calls = w.calls

/-- R153, R152: if the heater-register write of `set_heater(Some(level))` fails, the user register has already been
written with its enable bit set, the heater register has not been written, and the failure is reported. That the user
register is read before the heater register (N8), and that a write carries the command byte and the new byte in one
call (N7), are readings and not the document's words: DEDUCED, log 11. -/
def Obligations.HeaterSetPartialFailure : Prop :=
  ∀ (ε : Type) (tr : Transport ε) (level : Byte) (b1 b2 b3 : Nat → Byte) (e : ε) (w : Session), level ≤ 0x0f →
    let r1 : BusCall := .writeThenRead 0x40 [0xE7] 1
    let r2 : BusCall := .writeThenRead 0x40 [0x11] 1
    let w1 : BusCall := .write 0x40 [0xE6, (b1 0 &&& 0xfb) ||| 0x04]
    let w2 : BusCall := .write 0x40 [0x51, (b2 0 &&& 0xf0) ||| level]
    tr w.calls r1 = .ok b1 → tr (w.calls ++ [r1]) r2 = .ok b2 → tr (w.calls ++ [r1, r2]) w1 = .ok b3 →
    tr (w.calls ++ [r1, r2, w1]) w2 = .error e →
    ∃ w', setHeater tr (some level) w = (.error (.transportError e), w') ∧
      w'.calls = w.calls ++ [r1, r2, w1, w2]

/-- R143, R154: a read-only accessor makes one transaction; if it fails, the accessor reports the transport's error
unchanged, never retries, and the block is not used. The names and types of the accessors for humidity, resolution and
heater state, and that heater state is two accessors, are the model's choice (N14, log 14). -/
def Obligations.FailedReadAbortsAccessor : Prop :=
  ∀ (ε : Type) (tr : Transport ε) (e : ε) (w : Session) (cmd : Byte) (len : Nat) (acc : Accessor ε Dword),
    ((cmd, len, acc) = (0xE5, 3, humidity tr) ∨ (cmd, len, acc) = (0xE3, 3, temperature tr) ∨
      (cmd, len, acc) = (0xE0, 2, temperatureFromLastHumidity tr) ∨
      (cmd, len, acc) = (0xE7, 1, measurementResolution tr) ∨
      (cmd, len, acc) = (0xE7, 1, heaterEnabledAccessor tr) ∨ (cmd, len, acc) = (0x11, 1, heaterLevelAccessor tr)) →
    tr w.calls (.writeThenRead 0x40 [cmd] len) = .error e →
    acc w = (.error (.transportError e),
      { block := w.block, calls := w.calls ++ [.writeThenRead 0x40 [cmd] len] })

/-- R144, R112: `serial_number()` reads group A, then group B, and gives the identifier only if both groups' checksums
are right. -/
def Obligations.SerialNumberTwoTransactions : Prop :=
  ∀ (ε : Type) (tr : Transport ε) (a b : Nat → Byte) (w : Session),
    let ra : BusCall := .writeThenRead 0x40 [0xFA, 0x0F] 8
    let rb : BusCall := .writeThenRead 0x40 [0xFC, 0xC9] 6
    tr w.calls ra = .ok a → tr (w.calls ++ [ra]) rb = .ok b →
    ∃ r w', serialNumberAccessor tr w = (r, w') ∧ w'.calls = w.calls ++ [ra, rb] ∧
      (∀ v, r = .ok v ↔ crc8 0x00 [a 0, a 2, a 4, a 6] = a 7 ∧ crc8 0x00 [b 0, b 1, b 3, b 4] = b 5 ∧
        v = (a 0 ++ a 2 ++ a 4 ++ a 6 ++ b 0 ++ b 1 ++ b 3 ++ b 4 : BitVec 64)) ∧
      ∀ err, r = .error err → err = .reported 1

/-- R150: `set_measurement_resolution` reads the user register and writes back the byte with the new resolution, its
other bits as read. That the write carries the command byte and the new byte in one call (N7) is a reading and not the
document's words: DEDUCED, log 11. -/
def Obligations.SetResolutionReadModifyWrite : Prop :=
  ∀ (ε : Type) (tr : Transport ε) (q : Resolution) (b1 b2 : Nat → Byte) (w : Session),
    let r1 : BusCall := .writeThenRead 0x40 [0xE7] 1
    let w1 : BusCall := .write 0x40 [0xE6, (b1 0 &&& 0x7e) ||| patternOf q]
    tr w.calls r1 = .ok b1 → tr (w.calls ++ [r1]) w1 = .ok b2 →
    ∃ w', setMeasurementResolution tr q w = (.ok (), w') ∧ w'.calls = w.calls ++ [r1, w1]
end

