-- ==== Sys2Proof/Laws/State.lean ====
section
/-! SUPPORT. One lemma per field per update of State, so that no proof unfolds a record update; and what the host
sees of the updates. -/

namespace Sys2Proof.Machine

section setCrc
variable (s : State) (v : Byte)
@[simp] theorem State.setCrc_crc : (s.setCrc v).crc = v := rfl
@[simp] theorem State.setCrc_res : (s.setCrc v).res = s.res := rfl
@[simp] theorem State.setCrc_err : (s.setCrc v).err = s.err := rfl
@[simp] theorem State.setCrc_rv : (s.setCrc v).rv = s.rv := rfl
@[simp] theorem State.setCrc_draws : (s.setCrc v).draws = s.draws := rfl
@[simp] theorem State.setCrc_port : (s.setCrc v).port = s.port := rfl
@[simp] theorem State.setCrc_cfg : (s.setCrc v).cfg = s.cfg := rfl
@[simp] theorem State.setCrc_self : s.setCrc s.crc = s := rfl
end setCrc

section done
variable (s : State) (v : Dword)
@[simp] theorem State.done_crc : (s.done v).crc = s.crc := rfl
@[simp] theorem State.done_res : (s.done v).res = v := rfl
@[simp] theorem State.done_err : (s.done v).err = 0 := rfl
@[simp] theorem State.done_rv : (s.done v).rv = true := rfl
@[simp] theorem State.done_draws : (s.done v).draws = s.draws := rfl
@[simp] theorem State.done_port : (s.done v).port = s.port := rfl
@[simp] theorem State.done_cfg : (s.done v).cfg = s.cfg := rfl
end done

section drawRes
variable (s : State)
@[simp] theorem State.drawRes_crc : s.drawRes.crc = s.crc := rfl
@[simp] theorem State.drawRes_res : s.drawRes.res = Config.unspecifiedRes s.draws := rfl
@[simp] theorem State.drawRes_err : s.drawRes.err = s.err := rfl
@[simp] theorem State.drawRes_rv : s.drawRes.rv = s.rv := rfl
@[simp] theorem State.drawRes_draws : s.drawRes.draws = s.draws + 1 := rfl
@[simp] theorem State.drawRes_port : s.drawRes.port = s.port := rfl
@[simp] theorem State.drawRes_cfg : s.drawRes.cfg = s.cfg := rfl
end drawRes

section raise
variable (s : State) (e : BlockError)
@[simp] theorem State.raise_crc : (s.raise e).crc = s.crc := rfl
@[simp] theorem State.raise_res : (s.raise e).res = Config.unspecifiedRes s.draws := rfl
@[simp] theorem State.raise_err : (s.raise e).err = e.code := rfl
@[simp] theorem State.raise_rv : (s.raise e).rv = false := rfl
@[simp] theorem State.raise_draws : (s.raise e).draws = s.draws + 1 := rfl
@[simp] theorem State.raise_port : (s.raise e).port = s.port := rfl
@[simp] theorem State.raise_cfg : (s.raise e).cfg = s.cfg := rfl
end raise

section resetInput
variable (s : State)
@[simp] theorem State.resetInput_crc : s.resetInput.crc = 0x00 := rfl
@[simp] theorem State.resetInput_res : s.resetInput.res = Config.unspecifiedRes s.draws := rfl
@[simp] theorem State.resetInput_err : s.resetInput.err = 0 := rfl
@[simp] theorem State.resetInput_rv : s.resetInput.rv = false := rfl
@[simp] theorem State.resetInput_draws : s.resetInput.draws = s.draws + 1 := rfl
@[simp] theorem State.resetInput_port : s.resetInput.port = s.port := rfl
@[simp] theorem State.resetInput_cfg : s.resetInput.cfg = s.cfg := rfl
end resetInput

section readRes
variable (s : State)
@[simp] theorem State.readRes_crc : s.readRes.crc = s.crc := by unfold State.readRes; split <;> rfl
@[simp] theorem State.readRes_err : s.readRes.err = s.err := by unfold State.readRes; split <;> rfl
@[simp] theorem State.readRes_rv : s.readRes.rv = s.rv := by unfold State.readRes; split <;> rfl
@[simp] theorem State.readRes_port : s.readRes.port = s.port := by unfold State.readRes; split <;> rfl
@[simp] theorem State.readRes_cfg : s.readRes.cfg = s.cfg := by unfold State.readRes; split <;> rfl
theorem State.readRes_of_rv (h : s.rv = true) : s.readRes = s := by simp [State.readRes, h]
theorem State.readRes_of_not_rv (h : s.rv = false) : s.readRes = s.drawRes := by simp [State.readRes, h]
end readRes

section withPort
variable (s : State) (p q : List HostMove)
@[simp] theorem State.withPort_crc : (s.withPort p).crc = s.crc := rfl
@[simp] theorem State.withPort_res : (s.withPort p).res = s.res := rfl
@[simp] theorem State.withPort_err : (s.withPort p).err = s.err := rfl
@[simp] theorem State.withPort_rv : (s.withPort p).rv = s.rv := rfl
@[simp] theorem State.withPort_draws : (s.withPort p).draws = s.draws := rfl
@[simp] theorem State.withPort_port : (s.withPort p).port = p := rfl
@[simp] theorem State.withPort_cfg : (s.withPort p).cfg = s.cfg := rfl
@[simp] theorem State.withPort_withPort : (s.withPort p).withPort q = s.withPort q := rfl
end withPort

/-- A code of the block is 1 to 5 (R160). -/
theorem BlockError.code_ne_zero (e : BlockError) : e.code ≠ 0 := by cases e <;> decide

theorem BlockError.code_le_five (e : BlockError) : e.code.toNat ≤ 5 := by cases e <;> decide

/-- The record of a failed command, in the words of the statements. -/
theorem State.raise_failsWith (s : State) (e : BlockError) : FailsWith (.next (s.raise e)) s e.code :=
  ⟨Config.unspecifiedRes s.draws, s.draws + 1, rfl⟩

end Sys2Proof.Machine
end

