-- ==== Sys2Proof/Laws/Checksum.lean ====
section
/-! SUPPORT. The small lemmas of the checksum functions (40_checksum.md R70, R71, R76, R78). -/

namespace Sys2Proof.Machine

@[simp] theorem crc8_nil (c : Byte) : crc8 c [] = c := rfl

@[simp] theorem crc8_cons (c b : Byte) (bs : List Byte) : crc8 c (b :: bs) = crc8 (crc8Step c b) bs := rfl

/-- R76 (a). -/
theorem crc8_append (c : Byte) (xs ys : List Byte) : crc8 c (xs ++ ys) = crc8 (crc8 c xs) ys :=
  List.foldl_append

theorem crcRounds_succ (n : Nat) (t : Byte) : crcRounds (n + 1) t = crcRounds n (crcRound t) := rfl

/-- One iteration is linear over XOR: the shift is, and the polynomial goes in exactly when the high bits differ. -/
theorem crcRound_xor (a b : Byte) : crcRound (a ^^^ b) = crcRound a ^^^ crcRound b := by
  have hm : (a ^^^ b).msb = (a.msb ^^ b.msb) := BitVec.msb_xor
  have hs : (a ^^^ b) <<< 1 = a <<< 1 ^^^ b <<< 1 := BitVec.shiftLeft_xor_distrib a b 1
  have hp : crcPoly ^^^ crcPoly = 0#8 := by decide
  unfold crcRound
  rw [hm, hs]
  cases a.msb <;> cases b.msb <;> simp
  · exact BitVec.xor_assoc ..
  · rw [BitVec.xor_assoc, BitVec.xor_assoc, BitVec.xor_comm crcPoly]
  · rw [BitVec.xor_assoc, BitVec.xor_comm crcPoly, BitVec.xor_assoc, hp, BitVec.xor_zero]

theorem crcRounds_xor (n : Nat) (a b : Byte) : crcRounds n (a ^^^ b) = crcRounds n a ^^^ crcRounds n b := by
  induction n generalizing a b with
  | zero => rfl
  | succ n ih => rw [crcRounds_succ, crcRound_xor, ih, ← crcRounds_succ, ← crcRounds_succ]

theorem check_eq_true (data : List Byte) (c : Byte) : check data c = true ↔ crc8 0x00 data = c := by
  simp [check, crcInit]

theorem residueCheck_eq_true (data : List Byte) (c : Byte) :
    residueCheck data c = true ↔ crc8 0x00 (data ++ [c]) = 0x00 := by
  simp [residueCheck, crcInit]

/-- The table entry is eight rounds of the index itself. -/
theorem crcTable_eq (x : Byte) : crcTable x = crcRounds 8 x := by
  simp [crcTable, crc8Step, crcInit]

end Sys2Proof.Machine
end

