-- ==== Sys2Proof/Laws/Decode.lean ====
section
/-! SUPPORT. The small lemmas of the opcode map and of the decoder (30_encoding.md R52, R53). -/

namespace Sys2Proof

@[simp] theorem Opcode.ofByte?_byte (o : Opcode) : Opcode.ofByte? o.byte = some o := by cases o <;> decide

theorem Opcode.byte_of_ofByte? {b : Byte} {o : Opcode} (h : Opcode.ofByte? b = some o) : o.byte = b := by
  simpa using List.find?_some h

/-- No command's frame is empty, and only a span's can be longer than 15 bytes. -/
theorem encode_length_le (cfg : Config) (i : Instr) (h : i.wellFormed cfg = true) :
    (encode i).length ≤ cfg.maxFrame := by
  have := cfg.fifteen_le_maxFrame
  cases i <;> simp_all [encode, Instr.operandBytes, SerialBuffer.bytes, Instr.wellFormed] <;> omega

/-- A frame within `MAX_FRAME` whose opcode byte is known is read by its opcode (R53). -/
theorem decode_cons {cfg : Config} {o : Opcode} {args : List Byte} (h : args.length + 1 ≤ cfg.maxFrame) :
    decode cfg (o.byte :: args) = o.readOperands args := by
  simp [decode, Nat.not_lt.mpr h]

/-- What a decoded frame is (R53): not empty, within `MAX_FRAME`, of a known opcode, read by it. -/
theorem decode_ok_cases {cfg : Config} {f : Frame} {i : Instr} (h : decode cfg f = .ok i) :
    ∃ (o : Opcode) (args : List Byte), f = o.byte :: args ∧ f.length ≤ cfg.maxFrame ∧ o.readOperands args = .ok i := by
  cases f with
  | nil => simp [decode] at h
  | cons op args =>
    simp only [decode] at h
    split at h
    · cases h
    · split at h
      · cases h
      next hlen _ o ho =>
        exact ⟨o, args, by rw [Opcode.byte_of_ofByte? ho], Nat.le_of_not_lt hlen, h⟩

/-- Reading operands undoes writing them down, and says the opcode. -/
theorem readOperands_ok {o : Opcode} {args : List Byte} {i : Instr} (h : o.readOperands args = .ok i) :
    i.opcode = o ∧ i.operandBytes = args := by
  unfold Opcode.readOperands at h
  split at h <;> cases h <;> exact ⟨rfl, rfl⟩

end Sys2Proof
end

