-- ==== Sys2Proof/Laws/Exec.lean ====
section
/-! SUPPORT. What a command, and a step, can do: said once, for later proofs to cite. -/

namespace Sys2Proof.Machine

open Host

/-- A command ends with `done` or with `raise` (R15): with `done` it has written `CRC` only if it is a writer of it
(R10); with `raise` it is no writer of `CRC` (R168), and the error is not `IllegalCommand`, which only an illegal
frame raises (R160). -/
theorem exec_cases (i : Instr) (s : State) :
    (∃ c v, exec i s = .next ((s.setCrc c).done v) ∧ (writesCrc i = false → c = s.crc)) ∨
    (∃ e, exec i s = .next (s.raise e) ∧ writesCrc i = false ∧ e ≠ .illegalCommand) := by
  have done_case : ∀ v, exec i s = .next (s.done v) →
      (∃ c v, exec i s = .next ((s.setCrc c).done v) ∧ (writesCrc i = false → c = s.crc)) ∨
      (∃ e, exec i s = .next (s.raise e) ∧ writesCrc i = false ∧ e ≠ .illegalCommand) :=
    fun v h => .inl ⟨s.crc, v, h, fun _ => rfl⟩
  cases i with
  | crcClr => exact .inl ⟨_, _, rfl, by simp [writesCrc]⟩
  | crcByte b => exact .inl ⟨_, _, rfl, by simp [writesCrc]⟩
  | crcSpan ds => exact .inl ⟨_, _, rfl, by simp [writesCrc]⟩
  | crcChk c =>
    by_cases h : s.crc = c
    · exact done_case _ (by simp only [exec, execCrcChk, if_pos h]; rfl)
    · exact .inr ⟨.checksumFailure, by simp only [exec, execCrcChk, if_neg h], rfl, by decide⟩
  | decRh m l c =>
    by_cases h : check [m, l] c = true
    · exact done_case _ (by simp only [exec, execDecRh, if_pos h]; rfl)
    · exact .inr ⟨.checksumFailure, by simp only [exec, execDecRh, if_neg h], rfl, by decide⟩
  | decT m l c =>
    by_cases h : check [m, l] c = true
    · by_cases hz : (s.cfg.tSentinelOnChecked && isSentinel m l) = true
      · exact .inr ⟨.noPreviousHumidityMeasurement, by simp only [exec, execDecT, if_pos h, if_pos hz], rfl, by decide⟩
      · exact done_case _ (by simp only [exec, execDecT, if_pos h, if_neg hz]; rfl)
    · exact .inr ⟨.checksumFailure, by simp only [exec, execDecT, if_neg h], rfl, by decide⟩
  | decTlh m l =>
    by_cases hz : isSentinel m l = true
    · exact .inr ⟨.noPreviousHumidityMeasurement, by simp only [exec, execDecTlh, if_pos hz], rfl, by decide⟩
    · exact done_case _ (by simp only [exec, execDecTlh, if_neg hz]; rfl)
  | decSn buf =>
    by_cases ha : check (groupA buf) buf.s7 = true
    · by_cases hb : check (groupB buf) buf.s13 = true
      · exact done_case _ (by simp only [exec, execDecSn, if_pos ha, if_pos hb]; rfl)
      · exact .inr ⟨.checksumFailure, by simp only [exec, execDecSn, if_pos ha, if_neg hb], rfl, by decide⟩
    · exact .inr ⟨.checksumFailure, by simp only [exec, execDecSn, if_neg ha], rfl, by decide⟩
  | urGres u => exact done_case _ rfl
  | urSres u r =>
    cases h : resolutionOfPattern r with
    | none => exact .inr ⟨.illegalOperand, by simp only [exec, execUrSres, h], rfl, by decide⟩
    | some q => exact done_case _ (by simp only [exec, execUrSres, h]; rfl)
  | urGhtr u => exact done_case _ rfl
  | urShtr u on =>
    cases h : boolOfOperand on with
    | none => exact .inr ⟨.illegalOperand, by simp only [exec, execUrShtr, h], rfl, by decide⟩
    | some b => exact done_case _ (by simp only [exec, execUrShtr, h]; rfl)
  | hrGlvl h => exact done_case _ rfl
  | hrSlvl h v =>
    by_cases hv : hrLvlMax < v
    · exact .inr ⟨.invalidHeaterLevel, by simp only [exec, execHrSlvl, if_pos hv], rfl, by decide⟩
    · exact done_case _ (by simp only [exec, execHrSlvl, if_neg hv]; rfl)

/-- A frame's command ends with `done` or with `raise` (R15), an illegal frame with `raise IllegalCommand` (R56). -/
theorem execFrame_cases (f : Frame) (s : State) :
    (∃ c v, execFrame f s = .next ((s.setCrc c).done v)) ∨ (∃ e, execFrame f s = .next (s.raise e)) := by
  unfold execFrame
  split
  next i _ =>
    obtain ⟨c, v, h, -⟩ | ⟨e, h, -, -⟩ := exec_cases i s
    · exact .inl ⟨c, v, h⟩
    · exact .inr ⟨e, h⟩
  · exact .inr ⟨_, rfl⟩

/-- With no move of the host the block waits. -/
theorem step_of_port_nil {s : State} (h : s.port = []) : step s = .next s := by simp [step, takeMove, h]

theorem step_of_port_cons {s : State} {m : HostMove} {rest : List HostMove} (h : s.port = m :: rest) :
    step s = hostMove m (s.withPort rest) := by simp [step, takeMove, h]

/-- Every move of the host is a step to a next state. -/
theorem hostMove_next (m : HostMove) (s : State) : ∃ t, hostMove m s = .next t := by
  cases m with
  | command f =>
    obtain ⟨c, v, h⟩ | ⟨e, h⟩ := execFrame_cases f s
    · exact ⟨_, h⟩
    · exact ⟨_, h⟩
  | readRes => exact ⟨_, rfl⟩
  | reset => exact ⟨_, rfl⟩

/-- A move of the host leaves the waiting moves and the parameters as they are. -/
theorem hostMove_port_cfg {m : HostMove} {s t : State} (h : hostMove m s = .next t) :
    t.port = s.port ∧ t.cfg = s.cfg := by
  cases m with
  | command f =>
    obtain ⟨c, v, h'⟩ | ⟨e, h'⟩ := execFrame_cases f s
    all_goals
      rw [show hostMove (.command f) s = execFrame f s from rfl, h'] at h
      cases h
      exact ⟨rfl, rfl⟩
  | readRes => cases h; exact ⟨s.readRes_port, s.readRes_cfg⟩
  | reset => cases h; exact ⟨rfl, rfl⟩

/-- A step takes one move off the port, or waits, and never writes the parameters. -/
theorem step_next_cases {s t : State} (h : step s = .next t) :
    (s.port = [] ∧ t = s) ∨
    (∃ m rest, s.port = m :: rest ∧ hostMove m (s.withPort rest) = .next t ∧ t.port = rest ∧ t.cfg = s.cfg) := by
  cases hp : s.port with
  | nil => rw [step_of_port_nil hp] at h; cases h; exact .inl ⟨rfl, rfl⟩
  | cons m rest =>
    rw [step_of_port_cons hp] at h
    obtain ⟨h1, h2⟩ := hostMove_port_cfg h
    exact .inr ⟨m, rest, rfl, h, h1, h2⟩

end Sys2Proof.Machine
end

