-- ==== Sys2Proof/Laws/PerInstr.lean ====
section
/-! SUPPORT. A fact of every command as syntax, one lemma per constructor: its frame selects exactly the row of
opcode_table.json that bears its mnemonic (30_encoding.md R64). -/

namespace Sys2Proof.Laws.FrameShape

open Sys2Proof

/-- The row of each opcode, as a function of the opcode. -/
def rowOf (o : Opcode) : OpcodeRow :=
  ⟨o.mnemonic, o.byte, 0xff, o.operandCount.elim .upToMaxFrame fun n => .exactly (n + 1)⟩

/-- opcode_table.json (R64), the opcode bytes of R52 and the formats of R51 say the same. -/
theorem opcodeTable_eq : opcodeTable = Opcode.all.map rowOf := by decide

/-- A frame that begins with an opcode byte selects that opcode's row, if its length is the row's, and no other. -/
theorem selectedRows_cons (cfg : Config) (o : Opcode) (args : List Byte) :
    selectedRows cfg (o.byte :: args) =
      if (rowOf o).length.admits cfg (args.length + 1) then [rowOf o] else [] := by
  have hmask : ∀ b : Byte, b &&& 0xff#8 = b := fun b => BitVec.and_allOnes (w := 8)
  cases o <;>
    simp [selectedRows, opcodeTable_eq, Opcode.all, OpcodeRow.selectedBy, rowOf, hmask, List.filter, Opcode.byte] <;>
    split <;> simp_all

/-- The frame of a well-formed command selects one row of the opcode table, its own (R64). -/
def Statement (i : Instr) : Prop :=
  ∀ cfg : Config, i.wellFormed cfg = true →
    (selectedRows cfg (encode i)).map OpcodeRow.mnemonic = [i.opcode.mnemonic]

theorem of_admits {i : Instr}
    (h : ∀ cfg, i.wellFormed cfg = true → (rowOf i.opcode).length.admits cfg (i.operandBytes.length + 1) = true) :
    Statement i := by
  intro cfg hw
  rw [encode, selectedRows_cons, if_pos (h cfg hw)]
  rfl

theorem crcClr : Statement .crcClr := of_admits fun _ _ => rfl
theorem crcByte (b : Byte) : Statement (.crcByte b) := of_admits fun _ _ => rfl
theorem crcSpan (ds : List Byte) : Statement (.crcSpan ds) := of_admits fun _ h => by
  simpa [Instr.wellFormed, rowOf, Opcode.operandCount, Instr.opcode, FrameLength.admits, Instr.operandBytes] using h
theorem crcChk (c : Byte) : Statement (.crcChk c) := of_admits fun _ _ => rfl
theorem decRh (m l c : Byte) : Statement (.decRh m l c) := of_admits fun _ _ => rfl
theorem decT (m l c : Byte) : Statement (.decT m l c) := of_admits fun _ _ => rfl
theorem decTlh (m l : Byte) : Statement (.decTlh m l) := of_admits fun _ _ => rfl
theorem decSn (buf : SerialBuffer) : Statement (.decSn buf) := of_admits fun _ _ => rfl
theorem urGres (u : Byte) : Statement (.urGres u) := of_admits fun _ _ => rfl
theorem urSres (u r : Byte) : Statement (.urSres u r) := of_admits fun _ _ => rfl
theorem urGhtr (u : Byte) : Statement (.urGhtr u) := of_admits fun _ _ => rfl
theorem urShtr (u on : Byte) : Statement (.urShtr u on) := of_admits fun _ _ => rfl
theorem hrGlvl (h : Byte) : Statement (.hrGlvl h) := of_admits fun _ _ => rfl
theorem hrSlvl (h v : Byte) : Statement (.hrSlvl h v) := of_admits fun _ _ => rfl

end Sys2Proof.Laws.FrameShape
end

