-- ==== Sys2Proof/Tests/Slice0.lean ====
section
/-! SUPPORT. Tests. Every expected value is one that 95_test_vectors.md, or the rule named, gives; none was taken from
the model. After them, for each statement with hypotheses, a witness that meets them. -/

namespace Sys2Proof.Tests

open Sys2Proof Sys2Proof.Machine Host

/-- A block with this `CRC`, the registers of the start state of 95_test_vectors.md section 2.7, nothing waiting. -/
def blockWith (crc : Byte) : State := { State.reset with crc := crc, res := 7, rv := true }

/-- One step on one frame. -/
def stepFrame (s : State) (f : Frame) : Outcome State Fault Refusal := step (s.present f)

/-- The step ended with `done`, leaving this `CRC` and this `RES`. -/
def endsWith (o : Outcome State Fault Refusal) (crc : Byte) (res : Dword) : Bool :=
  match o with
  | .next t => t.crc == crc && t.res == res && t.rv && t.err == 0
  | .fault _ => false
  | .refused _ => false

/-- The step ended with an error of this code, leaving this `CRC`. -/
def failsWith (o : Outcome State Fault Refusal) (crc : Byte) (code : BitVec 3) : Bool :=
  match o with
  | .next t => t.crc == crc && !t.rv && t.err == code
  | .fault _ => false
  | .refused _ => false

/-! ### WellFormed refuses ill-formed terms -/

def tinyPort : Config := { frameSlack := 0, tSentinelOnChecked := false }

theorem test_wellFormed_refuses_long_span : (Instr.crcSpan (List.replicate 15 0)).wellFormed tinyPort = false := by
  decide
theorem test_wellFormed_takes_longest_span : (Instr.crcSpan (List.replicate 14 0)).wellFormed tinyPort = true := by
  decide
theorem test_operandsLegal_refuses_pattern : (Instr.urSres 0x3a 0x02).operandsLegal = false := by decide
theorem test_operandsLegal_refuses_boolean : (Instr.urShtr 0x3a 0x02).operandsLegal = false := by decide

/-! ### Decoding: the frames written out from R51 and R52 (first byte in the low bits of a table word) -/

theorem test_decode_crcClr : decode .default [0x00] = .ok .crcClr := by decide
theorem test_decode_crcByte : decode .default [0x01, 0x84] = .ok (.crcByte 0x84) := by decide
theorem test_decode_crcSpan : decode .default [0x02, 0xa1, 0xa6] = .ok (.crcSpan [0xa1, 0xa6]) := by decide
theorem test_decode_crcSpan_empty : decode .default [0x02] = .ok (.crcSpan []) := by decide
theorem test_decode_crcChk : decode .default [0x03, 0xa8] = .ok (.crcChk 0xa8) := by decide
theorem test_decode_decRh : decode .default [0x10, 0xa1, 0xa6, 0x51] = .ok (.decRh 0xa1 0xa6 0x51) := by decide
theorem test_decode_decT : decode .default [0x11, 0x66, 0x4c, 0x4f] = .ok (.decT 0x66 0x4c 0x4f) := by decide
theorem test_decode_decTlh : decode .default [0x12, 0x66, 0x44] = .ok (.decTlh 0x66 0x44) := by decide
theorem test_decode_decSn :
    decode .default [0x13, 0x84, 0xbe, 0x2c, 0x5b, 0xf9, 0x9e, 0xb1, 0xa8, 0x15, 0xff, 0xb5, 0xff, 0xfe, 0xcb] =
      .ok (.decSn ⟨0x84, 0xbe, 0x2c, 0x5b, 0xf9, 0x9e, 0xb1, 0xa8, 0x15, 0xff, 0xb5, 0xff, 0xfe, 0xcb⟩) := by decide
theorem test_decode_urGres : decode .default [0x20, 0xba] = .ok (.urGres 0xba) := by decide
theorem test_decode_urSres : decode .default [0x21, 0x3a, 0x81] = .ok (.urSres 0x3a 0x81) := by decide
theorem test_decode_urGhtr : decode .default [0x22, 0x3e] = .ok (.urGhtr 0x3e) := by decide
theorem test_decode_urShtr : decode .default [0x23, 0x3a, 0x01] = .ok (.urShtr 0x3a 0x01) := by decide
theorem test_decode_hrGlvl : decode .default [0x24, 0xa7] = .ok (.hrGlvl 0xa7) := by decide
theorem test_decode_hrSlvl : decode .default [0x25, 0xa7, 0x05] = .ok (.hrSlvl 0xa7 0x05) := by decide

/-- V-IL1 to V-IL3, V-IL5 to V-IL7, V-IL17, and R53's order at a port of 15 bytes. -/
theorem test_decode_rejects :
    decode .default [] = .error .emptyFrame ∧
    decode .default [0xff] = .error (.unknownOpcode 0xff) ∧
    decode .default [0x04] = .error (.unknownOpcode 0x04) ∧
    decode .default [0x26, 0x00] = .error (.unknownOpcode 0x26) ∧
    decode .default [0x00, 0x00] = .error (.wrongLength .crcClr) ∧
    decode .default [0x01] = .error (.wrongLength .crcByte) ∧
    decode .default [0x01, 0x01, 0x02] = .error (.wrongLength .crcByte) ∧
    decode tinyPort (0x02 :: List.replicate 15 0) = .error .overLong := by decide

/-- The longest frame of the default port (95_test_vectors.md section 2.3, V-IL18). -/
theorem test_decode_longest_frame :
    (decode .default (0x02 :: List.replicate 255 0)).toBool = true ∧
    decode .default (0x02 :: List.replicate 256 0) = .error .overLong := by decide +kernel

theorem test_tableWord_whole_frame : decodeTableWord 32 0x51a6a110 = some (.decRh 0xa1 0xa6 0x51) := by decide
theorem test_tableWord_opcode_alone : decodeTableWord 8 0x25 = some (.hrSlvl 0x00 0x00) := by decide
theorem test_tableWord_refuses : decodeTableWord 8 0x14 = none := by decide

/-! ### The commands, one step each (95_test_vectors.md sections 2.3 to 2.7) -/

/-- E1. -/
theorem test_crc8_span : crc8 0x00 [0x84, 0x2c, 0xf9, 0xb1] = 0xa8 := by decide +kernel
/-- Section 2.2, "123456789". -/
theorem test_crc8_ascii : crc8 0x00 [0x31, 0x32, 0x33, 0x34, 0x35, 0x36, 0x37, 0x38, 0x39] = 0xa2 := by decide +kernel
/-- The 256 values of `T`, 95_test_vectors.md section 2.2. -/
def tableOfSection22 : List Byte :=
  [0x00, 0x31, 0x62, 0x53, 0xc4, 0xf5, 0xa6, 0x97, 0xb9, 0x88, 0xdb, 0xea, 0x7d, 0x4c, 0x1f, 0x2e] ++
  [0x43, 0x72, 0x21, 0x10, 0x87, 0xb6, 0xe5, 0xd4, 0xfa, 0xcb, 0x98, 0xa9, 0x3e, 0x0f, 0x5c, 0x6d] ++
  [0x86, 0xb7, 0xe4, 0xd5, 0x42, 0x73, 0x20, 0x11, 0x3f, 0x0e, 0x5d, 0x6c, 0xfb, 0xca, 0x99, 0xa8] ++
  [0xc5, 0xf4, 0xa7, 0x96, 0x01, 0x30, 0x63, 0x52, 0x7c, 0x4d, 0x1e, 0x2f, 0xb8, 0x89, 0xda, 0xeb] ++
  [0x3d, 0x0c, 0x5f, 0x6e, 0xf9, 0xc8, 0x9b, 0xaa, 0x84, 0xb5, 0xe6, 0xd7, 0x40, 0x71, 0x22, 0x13] ++
  [0x7e, 0x4f, 0x1c, 0x2d, 0xba, 0x8b, 0xd8, 0xe9, 0xc7, 0xf6, 0xa5, 0x94, 0x03, 0x32, 0x61, 0x50] ++
  [0xbb, 0x8a, 0xd9, 0xe8, 0x7f, 0x4e, 0x1d, 0x2c, 0x02, 0x33, 0x60, 0x51, 0xc6, 0xf7, 0xa4, 0x95] ++
  [0xf8, 0xc9, 0x9a, 0xab, 0x3c, 0x0d, 0x5e, 0x6f, 0x41, 0x70, 0x23, 0x12, 0x85, 0xb4, 0xe7, 0xd6] ++
  [0x7a, 0x4b, 0x18, 0x29, 0xbe, 0x8f, 0xdc, 0xed, 0xc3, 0xf2, 0xa1, 0x90, 0x07, 0x36, 0x65, 0x54] ++
  [0x39, 0x08, 0x5b, 0x6a, 0xfd, 0xcc, 0x9f, 0xae, 0x80, 0xb1, 0xe2, 0xd3, 0x44, 0x75, 0x26, 0x17] ++
  [0xfc, 0xcd, 0x9e, 0xaf, 0x38, 0x09, 0x5a, 0x6b, 0x45, 0x74, 0x27, 0x16, 0x81, 0xb0, 0xe3, 0xd2] ++
  [0xbf, 0x8e, 0xdd, 0xec, 0x7b, 0x4a, 0x19, 0x28, 0x06, 0x37, 0x64, 0x55, 0xc2, 0xf3, 0xa0, 0x91] ++
  [0x47, 0x76, 0x25, 0x14, 0x83, 0xb2, 0xe1, 0xd0, 0xfe, 0xcf, 0x9c, 0xad, 0x3a, 0x0b, 0x58, 0x69] ++
  [0x04, 0x35, 0x66, 0x57, 0xc0, 0xf1, 0xa2, 0x93, 0xbd, 0x8c, 0xdf, 0xee, 0x79, 0x48, 0x1b, 0x2a] ++
  [0xc1, 0xf0, 0xa3, 0x92, 0x05, 0x34, 0x67, 0x56, 0x78, 0x49, 0x1a, 0x2b, 0xbc, 0x8d, 0xde, 0xef] ++
  [0x82, 0xb3, 0xe0, 0xd1, 0x46, 0x77, 0x24, 0x15, 0x3b, 0x0a, 0x59, 0x68, 0xff, 0xce, 0x9d, 0xac]
theorem test_crcTable : (List.range 256).map (fun n => crcTable (BitVec.ofNat 8 n)) = tableOfSection22 := by
  decide +kernel
/-- R76 (d), on E3's span: the right trailing byte leaves zero, the next one does not. -/
theorem test_residueCheck :
    residueCheck [0x84, 0x2c, 0xf9, 0xb1] 0xa8 = true ∧ residueCheck [0x84, 0x2c, 0xf9, 0xb1] 0xa9 = false := by
  decide +kernel

/-- R72's example. -/
theorem test_crcClr : endsWith (stepFrame (blockWith 0xa8) [0x00]) 0x00 0 = true := by decide +kernel
/-- V-C2. -/
theorem test_crcByte : endsWith (stepFrame (blockWith 0x00) [0x01, 0x84]) 0xbe 0xbe = true := by decide +kernel
/-- V-C11: no clear, folded onto `0xa8`. -/
theorem test_crcSpan :
    endsWith (stepFrame (blockWith 0xa8) [0x02, 0x15, 0xff, 0xff, 0xff]) 0x56 0x56 = true := by decide +kernel
/-- V-C8: the empty span reads. -/
theorem test_crcSpan_empty : endsWith (stepFrame (blockWith 0xa8) [0x02]) 0xa8 0xa8 = true := by decide +kernel
/-- V-C6. -/
theorem test_crcChk_match : endsWith (stepFrame (blockWith 0xa8) [0x03, 0xa8]) 0xa8 0xa8 = true := by decide +kernel
/-- V-C7. -/
theorem test_crcChk_mismatch : failsWith (stepFrame (blockWith 0xa8) [0x03, 0xa9]) 0xa8 1 = true := by decide +kernel
/-- V-RH1 (E4). -/
theorem test_decRh : endsWith (stepFrame (blockWith 0x5a) [0x10, 0xa1, 0xa6, 0x51]) 0x5a 7292 = true := by
  decide +kernel
/-- V-RH12: the first raw clamped high. -/
theorem test_decRh_clamped : endsWith (stepFrame (blockWith 0x5a) [0x10, 0xd9, 0x1c, 0x39]) 0x5a 10000 = true := by
  decide +kernel
/-- V-T3: most negative, sign extended, not the sentinel. -/
theorem test_decT_negative :
    endsWith (stepFrame (blockWith 0x5a) [0x11, 0x00, 0x01, 0x31]) 0x5a 0xffffffffffffedb3 = true := by decide +kernel
/-- V-T7 and V-T7': the one frame on which the parameter matters. -/
theorem test_decT_sentinel :
    failsWith (stepFrame (blockWith 0x5a) [0x11, 0x00, 0x00, 0x00]) 0x5a 2 = true ∧
    endsWith (stepFrame { blockWith 0x5a with cfg := tinyPort } [0x11, 0x00, 0x00, 0x00]) 0x5a 0xffffffffffffedb3 =
      true := by decide +kernel
/-- V-TL4: only the MSB is not zero, so not the sentinel. -/
theorem test_decTlh : endsWith (stepFrame (blockWith 0x5a) [0x12, 0x01, 0x00]) 0x5a 0xffffffffffffedf7 = true := by
  decide +kernel
/-- V-TL2 (E8). -/
theorem test_decTlh_sentinel : failsWith (stepFrame (blockWith 0x5a) [0x12, 0x00, 0x00]) 0x5a 2 = true := by
  decide +kernel
/-- V-SN5: the identifier of E10, the ignored bytes all wrong. -/
theorem test_decSn :
    endsWith (stepFrame (blockWith 0x5a)
      [0x13, 0x84, 0x00, 0x2c, 0x00, 0xf9, 0x00, 0xb1, 0xa8, 0x15, 0xff, 0x00, 0xff, 0xff, 0xcb])
      0x5a 0x842cf9b115ffffff = true := by decide +kernel
/-- V-SN3: group B's checksum corrupted. -/
theorem test_decSn_corrupt :
    failsWith (stepFrame (blockWith 0x5a)
      [0x13, 0x84, 0xbe, 0x2c, 0x5b, 0xf9, 0x9e, 0xb1, 0xa8, 0x15, 0xff, 0xb5, 0xff, 0xff, 0xca]) 0x5a 1 = true := by
  decide +kernel
/-- V-UR7. -/
theorem test_urGres : endsWith (stepFrame (blockWith 0x5a) [0x20, 0xba]) 0x5a 0x80 = true := by decide +kernel
/-- V-UR8. -/
theorem test_urSres : endsWith (stepFrame (blockWith 0x5a) [0x21, 0x3a, 0x81]) 0x5a 0xbb = true := by decide +kernel
/-- V-UR14: `0xff` is not masked to `0x81`. -/
theorem test_urSres_illegal : failsWith (stepFrame (blockWith 0x5a) [0x21, 0x3a, 0xff]) 0x5a 5 = true := by
  decide +kernel
/-- V-UR17 and V-UR18: only bit 2. -/
theorem test_urGhtr :
    endsWith (stepFrame (blockWith 0x5a) [0x22, 0x04]) 0x5a 1 = true ∧
    endsWith (stepFrame (blockWith 0x5a) [0x22, 0xfb]) 0x5a 0 = true := by decide +kernel
/-- V-UR20 and V-UR23: assigned, not inverted. -/
theorem test_urShtr :
    endsWith (stepFrame (blockWith 0x5a) [0x23, 0x3e, 0x01]) 0x5a 0x3e = true ∧
    endsWith (stepFrame (blockWith 0x5a) [0x23, 0xff, 0x00]) 0x5a 0xfb = true := by decide +kernel
/-- V-UR25. -/
theorem test_urShtr_illegal : failsWith (stepFrame (blockWith 0x5a) [0x23, 0x3a, 0x02]) 0x5a 5 = true := by
  decide +kernel
/-- V-HR1. -/
theorem test_hrGlvl : endsWith (stepFrame (blockWith 0x5a) [0x24, 0xa7]) 0x5a 7 = true := by decide +kernel
/-- V-HR7. -/
theorem test_hrSlvl : endsWith (stepFrame (blockWith 0x5a) [0x25, 0xa7, 0x0f]) 0x5a 0xaf = true := by decide +kernel
/-- V-HR8: the first illegal level. -/
theorem test_hrSlvl_illegal : failsWith (stepFrame (blockWith 0x5a) [0x25, 0xa7, 0x10]) 0x5a 3 = true := by
  decide +kernel
/-- V-IL1, V-IL4, V-IL10. -/
theorem test_illegal_frames :
    failsWith (stepFrame (blockWith 0x5a) []) 0x5a 4 = true ∧
    failsWith (stepFrame (blockWith 0x5a) [0xe5]) 0x5a 4 = true ∧
    failsWith (stepFrame (blockWith 0x5a) [0x10, 0xa1, 0xa6, 0x51, 0x00]) 0x5a 4 = true := by decide +kernel
/-- R13: `STATUS` after an `IllegalOperand` and after success. -/
theorem test_status :
    ({ blockWith 0x5a with err := 5, rv := false } : State).status = 0x05 ∧ (blockWith 0x5a).status = 0x08 := by
  decide
/-- The free value is drawn anew by each error, and by a read while `RV = 0` (U1). -/
theorem test_draws :
    ((blockWith 0x5a).raise .illegalCommand).draws = 2 ∧
    ((blockWith 0x5a).raise .illegalCommand).readRes.draws = 3 ∧ (blockWith 0x5a).readRes.draws = 1 := by decide
/-- The very next step after `withFetchWord` runs the table word's command (here R95's example). -/
theorem test_withFetchWord : endsWith (step (State.reset.withFetchWord 32 0x51a6a110)) 0x00 7292 = true := by
  decide +kernel
/-- R60's two examples. -/
theorem test_text :
    instrText (.decRh 0xa1 0xa6 0x51) = "DEC.RH 0xa1, 0xa6, 0x51" ∧
    instrText (.crcSpan [0x84, 0x2c, 0xf9, 0xb1]) = "CRC.SPAN [0x84, 0x2c, 0xf9, 0xb1]" := by decide

/-! ### The host's Sensor Session (95_test_vectors.md P3) -/

/-- P3's device: UserRegister `0x3a`, HeaterRegister `0xa7`; the heater-register write fails if `failing`. -/
def deviceP3 (failing : Bool) : Transport Nat := fun _ c =>
  match c with
  | .writeThenRead _ cmd _ => .ok fun _ => if cmd = [0xE7] then 0x3a else 0xa7
  | .write _ bytes => if failing && bytes.head? == some 0x51 then .error 1 else .ok fun _ => 0

def resetSession : Session := { block := State.reset, calls := [] }

/-- P3: the four bus calls of `set_heater(Some(5))`, and none for `set_heater(Some(16))`. -/
theorem test_setHeater :
    (setHeater (deviceP3 false) (some 5) resetSession).2.calls =
      [.writeThenRead 0x40 [0xE7] 1, .writeThenRead 0x40 [0x11] 1, .write 0x40 [0xE6, 0x3e], .write 0x40 [0x51, 0xa5]] ∧
    (setHeater (deviceP3 false) (some 5) resetSession).1.toBool = true ∧
    (setHeater (deviceP3 false) (some 16) resetSession).2.calls = [] ∧
    (setHeater (deviceP3 false) (some 16) resetSession).1.toBool = false := by decide +kernel
/-- R151: without a level, one read and one write, the enable bit cleared. -/
theorem test_setHeater_off :
    (setHeater (deviceP3 false) none resetSession).2.calls =
      [.writeThenRead 0x40 [0xE7] 1, .write 0x40 [0xE6, 0x3a]] := by decide +kernel

/-! ### Witnesses: for each statement with hypotheses, a state and operands that meet them -/

def goodSn : SerialBuffer := ⟨0x84, 0xbe, 0x2c, 0x5b, 0xf9, 0x9e, 0xb1, 0xa8, 0x15, 0xff, 0xb5, 0xff, 0xff, 0xcb⟩
def badSn : SerialBuffer := { goodSn with s13 := 0xca }
def waiting (m : HostMove) : State := { State.reset with port := [m] }

theorem witness_DecodeInvertsEncode :
    (Instr.crcSpan (List.replicate 14 0)).wellFormed tinyPort = true ∧ (Instr.decSn goodSn).wellFormed tinyPort = true :=
  by decide
theorem witness_EncodeInvertsDecode : decode tinyPort (encode (.decSn goodSn)) = .ok (.decSn goodSn) := by decide
theorem witness_StepRunsDecodedCommand :
    (waiting (.command [0x00])).port = .command [0x00] :: [] ∧
    decode (waiting (.command [0x00])).cfg [0x00] = .ok .crcClr := by decide
/-- One frame for each clause; at the longest legal length, and with an opcode byte next to an assigned one. -/
theorem witness_IllegalFrameRaisesIllegalCommand :
    (waiting (.command [])).port = .command [] :: [] ∧
    tinyPort.maxFrame < (0x02 :: List.replicate 15 0x00#8 : Frame).length ∧
    (∀ row ∈ opcodeTable, row.pattern ≠ 0x26) ∧
    (⟨"CRC.CLR", 0x00, 0xff, .exactly 1⟩ ∈ opcodeTable ∧
      (FrameLength.exactly 1).admits tinyPort ([0x00, 0x00] : Frame).length = false) := by decide
theorem witness_ResetInputGivesResetState : (waiting .reset).port = .reset :: [] := rfl
theorem witness_HostReadHasNoSideEffect :
    (waiting .readRes).port = .readRes :: [] ∧ (waiting .readRes).rv = false ∧
    ({ waiting .readRes with rv := true } : State).rv = true := by decide
theorem witness_CrcSpanFoldsSpan : ([0x84] : List Byte) ≠ [] := by decide
theorem witness_CrcChkCompares : (blockWith 0xa8).crc = 0xa8 ∧ (blockWith 0xa8).crc ≠ 0xa9 := by decide
theorem witness_CrcIsLinear : ([0x01, 0x02] : List Byte).length = ([0xff, 0x00] : List Byte).length := rfl
/-- V-RH1, V-RH2: a right and a wrong checksum; also those of DEC.T and of R98's first clause. -/
theorem witness_DecRhDecodesHumidity : crc8 0x00 [0xa1, 0xa6] = 0x51 ∧ crc8 0x00 [0xa1, 0xa6] ≠ 0x50 := by
  decide +kernel
/-- The all-zero sample under each setting, and the sample next to it. -/
theorem witness_DecTDecodesTemperature :
    crc8 0x00 [0x00, 0x00] ≠ 0x01 ∧
    (crc8 0x00 [0x00, 0x00] = 0x00 ∧ (blockWith 0).cfg.tSentinelOnChecked = true) ∧
    (crc8 0x00 [0x00, 0x00] = 0x00 ∧ tinyPort.tSentinelOnChecked = false) ∧
    (crc8 0x00 [0x00, 0x01] = 0x31 ∧ (0x01 : Byte) ≠ 0x00) := by decide +kernel
theorem witness_DecTlhDecodesTemperature : (0x00 : Byte) = 0x00 ∧ (0x01 : Byte) ≠ 0x00 := by decide
theorem witness_HumidityRanges : 3145 ≤ 3145 ∧ 3146 ≤ 55579 ∧ 55580 ≤ 65535 := by decide
theorem witness_TemperatureRanges : 17473 ≤ 17473 ∧ 17474 ≤ 17476 ∧ 17477 ≤ 17477 := by decide
theorem witness_HumidityResultInRange :
    (match exec (.decRh 0xff 0xff 0x2d) State.reset with | .next t => t.rv | _ => false) = true := by decide +kernel
/-- The least widths, the largest `raw`; and `raw = 1`, whose numerator is negative and no multiple of 65536. -/
theorem witness_ThirtyOneBitMultiplierSuffices :
    30 ≤ 30 ∧ 31 ≤ 31 ∧ 65535 ≤ 65535 ∧ (17572 * (1 : Nat) - 4685 * 65536 : Int) < 0 ∧
    ¬(65536 : Int) ∣ 17572 * (1 : Nat) - 4685 * 65536 := by omega
theorem witness_CorruptedSampleIsCaught : (0x50 : Byte) ≠ crc8 0x00 [0xa1, 0xa6] ∧ (0xa7 : Byte) ≠ 0xa6 := by
  decide +kernel
theorem witness_DecSnDecodesSerialNumber :
    (crc8 0x00 [0x84, 0x2c, 0xf9, 0xb1] = goodSn.s7 ∧ crc8 0x00 [0x15, 0xff, 0xff, 0xff] = goodSn.s13) ∧
    crc8 0x00 [0x15, 0xff, 0xff, 0xff] ≠ badSn.s13 := by decide +kernel
theorem witness_SerialNumberBytesInOrder :
    (match exec (.decSn goodSn) State.reset with | .next t => t.rv | _ => false) = true := by decide +kernel
theorem witness_UrSresSetsResolution :
    ((0x81 : Byte) = 0x00 ∨ (0x81 : Byte) = 0x01 ∨ (0x81 : Byte) = 0x80 ∨ (0x81 : Byte) = 0x81) ∧
    ¬((0x02 : Byte) = 0x00 ∨ (0x02 : Byte) = 0x01 ∨ (0x02 : Byte) = 0x80 ∨ (0x02 : Byte) = 0x81) := by decide
theorem witness_UrGhtrReadsHeaterEnable : (0x04 : Byte) &&& 0x04 ≠ 0 ∧ (0xfb : Byte) &&& 0x04 = 0 := by decide
theorem witness_UrShtrSetsHeaterEnable : (0x02 : Byte) ≠ 0x00 ∧ (0x02 : Byte) ≠ 0x01 := by decide
theorem witness_HrSlvlSetsLevel : (0x0f : Byte) ≤ 0x0f ∧ (0x0f : Byte) < 0x10 := by decide
theorem witness_SettersRoundTrip : (0x0f : Byte) ≤ 0x0f := by decide
theorem witness_CodecIdentities : (1 : Nat) ≠ 2 ∧ (3 : Nat) ≠ 2 := by decide
theorem witness_ReservedBitsPassThrough :
    (match exec (.urSres 0xff 0x00) State.reset with | .next t => t.rv | _ => false) = true ∧
    (match exec (.urShtr 0xff 0x00) State.reset with | .next t => t.rv | _ => false) = true ∧
    (match exec (.hrSlvl 0xff 0x00) State.reset with | .next t => t.rv | _ => false) = true := by decide
theorem witness_FrameEndsDoneOrRaise : (waiting (.command [0x99])).port = .command [0x99] :: [] := rfl
theorem witness_StatusRegister :
    (∃ t, step (waiting (.command [0x00])) = .next t) ∧ (∃ t, step (waiting .reset) = .next t) :=
  ⟨⟨_, rfl⟩, ⟨_, rfl⟩⟩
theorem witness_StepKeepsStatusLegal :
    (waiting (.command [0x99])).StatusInv ∧ ∃ t, step (waiting (.command [0x99])) = .next t :=
  ⟨⟨by decide, by decide⟩, ⟨_, rfl⟩⟩
theorem witness_CrcWrittenOnlyByItsWriters :
    HostMove.mayWriteCrc .default (.command [0x03, 0xa8]) = false ∧
    ∃ t, step (waiting (.command [0x03, 0xa8])) = .next t := ⟨by decide, ⟨_, rfl⟩⟩
theorem witness_OtherCommandsDoNotTouchCrc :
    readsCrc (.urGres 0xff) = false ∧ writesCrc (.urGres 0xff) = false ∧
    ∃ t, exec (.urGres 0xff) State.reset = .next t := ⟨rfl, rfl, ⟨_, rfl⟩⟩
/-- One command for each of the four codes. -/
theorem witness_ErrorsComeFromTheirCommands :
    FailsWith (exec (.crcChk 0x01) State.reset) State.reset 1 ∧
    FailsWith (exec (.decTlh 0x00 0x00) State.reset) State.reset 2 ∧
    FailsWith (exec (.hrSlvl 0xa7 0x10) State.reset) State.reset 3 ∧
    FailsWith (exec (.urSres 0x3a 0x02) State.reset) State.reset 5 :=
  ⟨State.reset.raise_failsWith .checksumFailure, State.reset.raise_failsWith .noPreviousHumidityMeasurement,
    State.reset.raise_failsWith .invalidHeaterLevel, State.reset.raise_failsWith .illegalOperand⟩
/-- Two states alike in `CRC` and parameters, one after an error and one after a success. -/
theorem witness_StatusIsNotSticky :
    (blockWith 0x00).crc = (State.reset.raise .illegalCommand).crc ∧
    (blockWith 0x00).cfg = (State.reset.raise .illegalCommand).cfg ∧
    ((blockWith 0x00).present [0x02]).port = .command [0x02] :: [] ∧
    ((State.reset.raise .illegalCommand).present [0x02]).port = .command [0x02] :: [] := ⟨rfl, rfl, rfl, rfl⟩
theorem witness_IdempotentCommands :
    (∀ b, Instr.crcSpan [] ≠ .crcByte b) ∧ (∀ ds, Instr.crcSpan [] = .crcSpan ds → ds = []) ∧
    ∃ t, exec (.crcSpan []) State.reset = .next t := ⟨by simp, by simp, ⟨_, rfl⟩⟩
/-- Two states that differ in the unspecified `RES`, before a read and a command. -/
theorem witness_UnspecifiedResNeverObserved :
    ({ waiting .readRes with res := 1 } : State).LooksLike { waiting .readRes with res := 2 } :=
  ⟨rfl, rfl, rfl, fun h => nomatch h⟩
theorem witness_PseudoCommandsValidate : ([0xa1, 0xa6] : List Byte).length + 1 ≤ State.reset.cfg.maxFrame := by decide
theorem witness_IllegalLevelMakesNoBusCall : (0x0f : Byte) < 0x10 := by decide
theorem witness_HeaterSetPartialFailure :
    (0x0f : Byte) ≤ 0x0f ∧ ∃ b1 b2 b3 : Nat → Byte,
    deviceP3 true [] (.writeThenRead 0x40 [0xE7] 1) = .ok b1 ∧
    deviceP3 true [.writeThenRead 0x40 [0xE7] 1] (.writeThenRead 0x40 [0x11] 1) = .ok b2 ∧
    deviceP3 true [.writeThenRead 0x40 [0xE7] 1, .writeThenRead 0x40 [0x11] 1]
      (.write 0x40 [0xE6, (b1 0 &&& 0xfb) ||| 0x04]) = .ok b3 ∧
    deviceP3 true [.writeThenRead 0x40 [0xE7] 1, .writeThenRead 0x40 [0x11] 1,
      .write 0x40 [0xE6, (b1 0 &&& 0xfb) ||| 0x04]] (.write 0x40 [0x51, (b2 0 &&& 0xf0) ||| 0x0f]) = .error 1 :=
  ⟨by decide, _, _, _, rfl, rfl, rfl, rfl⟩
theorem witness_FailedReadAbortsAccessor :
    (fun _ _ => .error 1 : Transport Nat) [] (.writeThenRead 0x40 [0xE5] 3) = .error 1 := rfl
theorem witness_SerialNumberTwoTransactions : ∃ a b : Nat → Byte,
    deviceP3 false [] (.writeThenRead 0x40 [0xFA, 0x0F] 8) = .ok a ∧
    deviceP3 false [.writeThenRead 0x40 [0xFA, 0x0F] 8] (.writeThenRead 0x40 [0xFC, 0xC9] 6) = .ok b :=
  ⟨_, _, rfl, rfl⟩
theorem witness_SetResolutionReadModifyWrite : ∃ b1 b2 : Nat → Byte,
    deviceP3 false [] (.writeThenRead 0x40 [0xE7] 1) = .ok b1 ∧
    deviceP3 false [.writeThenRead 0x40 [0xE7] 1] (.write 0x40 [0xE6, (b1 0 &&& 0x7e) ||| patternOf .rh11Temp11]) = .ok b2 :=
  ⟨_, _, rfl, rfl⟩

end Sys2Proof.Tests
end

section
/-! PROOFS of the statements about the state: its status register, `CRC`, and the unspecified `RES`. -/

namespace Sys2Proof.Machine

open Host

/-! ### `CRC` is kept by whatever is not a writer of it (10_state.md R10) -/

theorem exec_keeps_crc {i : Instr} {s t : State} (hw : writesCrc i = false) (h : exec i s = .next t) :
    t.crc = s.crc := by
  obtain ⟨c, v, h', hc⟩ | ⟨e, h', -, -⟩ := exec_cases i s
  · rw [h'] at h; cases h; exact hc hw
  · rw [h'] at h; cases h; rfl

theorem execFrame_of_decode_ok {f : Frame} {s : State} {i : Instr} (h : decode s.cfg f = .ok i) :
    execFrame f s = exec i s := by simp only [execFrame, h]

theorem execFrame_of_decode_error {f : Frame} {s : State} {e : FrameError} (h : decode s.cfg f = .error e) :
    execFrame f s = .next (s.raise .illegalCommand) := by simp only [execFrame, h]

theorem hostMove_keeps_crc {m : HostMove} {s t : State} (hw : m.mayWriteCrc s.cfg = false)
    (h : hostMove m s = .next t) : t.crc = s.crc := by
  cases m with
  | command f =>
    change execFrame f s = .next t at h
    cases hd : decode s.cfg f with
    | ok i =>
      rw [execFrame_of_decode_ok hd] at h
      exact exec_keeps_crc (by simpa only [HostMove.mayWriteCrc, hd] using hw) h
    | error e => rw [execFrame_of_decode_error hd] at h; cases h; rfl
  | readRes => cases h; exact s.readRes_crc
  | reset => cases hw

/-! ### Two runs of one command (R12, R14): which part of the state a command can depend on -/

/-- One command has ended in the same way from `s` and from `t`; the flag says whether it is a writer of `CRC`. -/
inductive SameEnding (s t : State) : Bool → Outcome State Fault Refusal → Outcome State Fault Refusal → Prop
  | wrote (c : Byte) (v : Dword) :
      SameEnding s t true (.next ((s.setCrc c).done v)) (.next ((t.setCrc c).done v))
  | done (v : Dword) : SameEnding s t false (.next (s.done v)) (.next (t.done v))
  | raise (e : BlockError) : SameEnding s t false (.next (s.raise e)) (.next (t.raise e))

/-- A command depends on the parameters, on `CRC` if it is a reader of it (R10), and on nothing else of the state. -/
theorem exec_sameEnding (i : Instr) {s t : State} (hcfg : s.cfg = t.cfg) (hcrc : readsCrc i = true → s.crc = t.crc) :
    SameEnding s t (writesCrc i) (exec i s) (exec i t) := by
  cases i with
  | crcClr => exact .wrote _ _
  | crcByte b => simp only [exec, execCrcByte, hcrc rfl]; exact .wrote _ _
  | crcSpan ds => simp only [exec, execCrcSpan, hcrc rfl]; exact .wrote _ _
  | crcChk c =>
    simp only [exec, execCrcChk, hcrc rfl]
    split
    · exact .done _
    · exact .raise _
  | decRh m l c =>
    simp only [exec, execDecRh]
    split
    · exact .done _
    · exact .raise _
  | decT m l c =>
    simp only [exec, execDecT, hcfg]
    split
    · split
      · exact .raise _
      · exact .done _
    · exact .raise _
  | decTlh m l =>
    simp only [exec, execDecTlh]
    split
    · exact .raise _
    · exact .done _
  | decSn buf =>
    simp only [exec, execDecSn]
    split
    · split
      · exact .done _
      · exact .raise _
    · exact .raise _
  | urGres u => exact .done _
  | urSres u r =>
    simp only [exec, execUrSres]
    split
    · exact .raise _
    · exact .done _
  | urGhtr u => exact .done _
  | urShtr u on =>
    simp only [exec, execUrShtr]
    split
    · exact .raise _
    · exact .done _
  | hrGlvl h => exact .done _
  | hrSlvl h v =>
    simp only [exec, execHrSlvl]
    split
    · exact .raise _
    · exact .done _

theorem State.LooksLike.refl (s : State) : s.LooksLike s := ⟨rfl, rfl, rfl, fun _ => rfl⟩

theorem State.LooksLike.done {s t : State} (hcrc : s.crc = t.crc) (v : Dword) : (s.done v).LooksLike (t.done v) :=
  ⟨hcrc, rfl, rfl, fun _ => rfl⟩

theorem State.LooksLike.raise {s t : State} (hcrc : s.crc = t.crc) (e : BlockError) :
    (s.raise e).LooksLike (t.raise e) :=
  ⟨hcrc, rfl, rfl, fun hrv => nomatch hrv⟩

/-- Both outcomes are next states, and these look alike to the host. -/
def NextAlike (x y : Outcome State Fault Refusal) : Prop :=
  ∃ s t : State, x = .next s ∧ y = .next t ∧ s.LooksLike t

theorem SameEnding.nextAlike {s t : State} {w : Bool} {x y : Outcome State Fault Refusal}
    (h : SameEnding s t w x y) (hcrc : s.crc = t.crc) : NextAlike x y := by
  cases h with
  | wrote c v => exact ⟨_, _, rfl, rfl, .done rfl v⟩
  | done v => exact ⟨_, _, rfl, rfl, .done hcrc v⟩
  | raise e => exact ⟨_, _, rfl, rfl, .raise hcrc e⟩

/-- What a frame leaves depends on `CRC` and the parameters alone (R14). -/
theorem execFrame_nextAlike (f : Frame) {s t : State} (hcrc : s.crc = t.crc) (hcfg : s.cfg = t.cfg) :
    NextAlike (execFrame f s) (execFrame f t) := by
  cases hd : decode s.cfg f with
  | ok i =>
    rw [execFrame_of_decode_ok hd, execFrame_of_decode_ok (hcfg ▸ hd)]
    exact (exec_sameEnding i hcfg fun _ => hcrc).nextAlike hcrc
  | error e =>
    rw [execFrame_of_decode_error hd, execFrame_of_decode_error (hcfg ▸ hd)]
    exact ⟨_, _, rfl, rfl, .raise hcrc _⟩

/-- A read of `RES` draws in both states or in neither, since they agree on `RV` (U1). -/
theorem State.LooksLike.readRes {s t : State} (h : s.LooksLike t) : s.readRes.LooksLike t.readRes := by
  obtain ⟨hcrc, herr, hrv, hres⟩ := h
  cases hs : s.rv with
  | true =>
    rw [s.readRes_of_rv hs, t.readRes_of_rv (hrv ▸ hs)]
    exact ⟨hcrc, herr, hrv, hres⟩
  | false =>
    rw [s.readRes_of_not_rv hs, t.readRes_of_not_rv (hrv ▸ hs)]
    exact ⟨hcrc, herr, hrv, fun hrv' => nomatch hs.symm.trans hrv'⟩

theorem hostMove_nextAlike (m : HostMove) {s t : State} (h : s.LooksLike t) (hcfg : s.cfg = t.cfg) :
    NextAlike (hostMove m s) (hostMove m t) := by
  cases m with
  | command f => exact execFrame_nextAlike f h.1 hcfg
  | readRes => exact ⟨_, _, rfl, rfl, h.readRes⟩
  | reset => exact ⟨_, _, rfl, rfl, rfl, rfl, rfl, fun hrv => nomatch hrv⟩

theorem step_nextAlike {s t : State} (h : s.LooksLike t) (hport : s.port = t.port) (hcfg : s.cfg = t.cfg) :
    ∃ s' t', step s = .next s' ∧ step t = .next t' ∧ s'.LooksLike t' ∧ s'.port = t'.port ∧ s'.cfg = t'.cfg := by
  cases hp : s.port with
  | nil => exact ⟨s, t, step_of_port_nil hp, step_of_port_nil (hport ▸ hp), h, hport, hcfg⟩
  | cons m rest =>
    rw [step_of_port_cons hp, step_of_port_cons (hport ▸ hp)]
    obtain ⟨s', t', hs, ht, h'⟩ :=
      hostMove_nextAlike m (s := s.withPort rest) (t := t.withPort rest) h hcfg
    obtain ⟨hps, hcs⟩ := hostMove_port_cfg hs
    obtain ⟨hpt, hct⟩ := hostMove_port_cfg ht
    exact ⟨s', t', hs, ht, h', hps.trans hpt.symm, hcs.trans (hcfg.trans hct.symm)⟩

/-! ### Runs of the machine -/

/-- A step on a waiting frame runs the frame. -/
theorem step_of_port_command {s : State} {f : Frame} {rest : List HostMove} (h : s.port = .command f :: rest) :
    step s = execFrame f (s.withPort rest) := step_of_port_cons h

theorem run_succ_of_step {s t : State} (n : Nat) (h : step s = .next t) : core.run (n + 1) s = core.run n t := by
  simp only [Core.run, show core.step s = .next t from h]

theorem run_nextAlike (n : Nat) {s t : State} (h : s.LooksLike t) (hport : s.port = t.port) (hcfg : s.cfg = t.cfg) :
    NextAlike (core.run n s) (core.run n t) := by
  induction n generalizing s t with
  | zero => exact ⟨s, t, rfl, rfl, h⟩
  | succ n ih =>
    obtain ⟨s', t', hs, ht, h', hport', hcfg'⟩ := step_nextAlike h hport hcfg
    rw [run_succ_of_step n hs, run_succ_of_step n ht]
    exact ih h' hport' hcfg'

/-- Settles O50: two machines that look alike keep looking alike at every step. -/
theorem unspecifiedResNeverObserved : Obligations.UnspecifiedResNeverObserved :=
  fun n _ _ h hport hcfg => run_nextAlike n h hport hcfg

/-! ### The status register (R13) -/

theorem execFrame_status {f : Frame} {s t : State} (h : execFrame f s = .next t) :
    t.err.toNat ≤ 5 ∧ (t.rv = true ↔ t.err = 0) := by
  obtain ⟨c, v, h'⟩ | ⟨e, h'⟩ := execFrame_cases f s
  · rw [h'] at h; cases h; simp
  · rw [h'] at h; cases h
    exact ⟨e.code_le_five, iff_of_false Bool.false_ne_true e.code_ne_zero⟩

theorem hostMove_keeps_statusInv {m : HostMove} {s t : State} (hs : s.StatusInv) (h : hostMove m s = .next t) :
    t.StatusInv := by
  cases m with
  | command f =>
    obtain ⟨herr, hrv⟩ := execFrame_status (f := f) h
    exact ⟨herr, hrv.mp⟩
  | readRes => cases h; simpa [State.StatusInv] using hs
  | reset => cases h; simp [State.StatusInv]

/-- Settles O43: waiting keeps the state, and every move of the host keeps the invariant. -/
theorem stepKeepsStatusLegal : Obligations.StepKeepsStatusLegal := by
  intro s t hs h
  obtain ⟨-, rfl⟩ | ⟨m, rest, -, hm, -, -⟩ := step_next_cases h
  · exact hs
  · exact hostMove_keeps_statusInv (s := s.withPort rest) hs hm

/-- Settles O44. -/
theorem resetStatusLegal : Obligations.ResetStatusLegal := ⟨by decide, fun hrv => nomatch hrv⟩

/-- Settles O8: every register of R27 is a literal of `State.reset`, and `RV = 0` hides the drawn `RES`. -/
theorem resetRegisters : Obligations.ResetRegisters := ⟨rfl, rfl, rfl, by decide, rfl⟩

theorem State.status_fields (s : State) :
    s.status.extractLsb' 4 4 = 0#4 ∧ s.status.getLsbD 3 = s.rv ∧ s.status.extractLsb' 0 3 = s.err := by
  unfold State.status
  generalize s.rv = rv
  generalize s.err = err
  revert rv err
  decide

/-- Settles O42: the layout bit by bit, then the two ways a frame ends, then the reset input. -/
theorem statusRegister : Obligations.StatusRegister := by
  refine ⟨State.status_fields, fun s t f rest hp h => ?_, fun s t rest hp h => ?_, rfl, rfl⟩
  · rw [step_of_port_command hp] at h
    exact execFrame_status h
  · rw [step_of_port_cons hp] at h
    cases h
    exact ⟨rfl, rfl⟩

/-- The two ends of a command exclude each other: `done` sets `RV`, `raise` clears it (R15). -/
theorem not_failsWith_done (s u : State) (v : Dword) (code : BitVec 3) : ¬FailsWith (.next (u.done v)) s code := by
  rintro ⟨w, n, h⟩
  injection h with h
  exact nomatch congrArg State.rv h

theorem BlockError.one_le_code (e : BlockError) : 1 ≤ e.code.toNat := by cases e <;> decide

/-- Settles O41: a frame ends with `done` or with `raise`, and no `raise` is a `done`. -/
theorem frameEndsDoneOrRaise : Obligations.FrameEndsDoneOrRaise := by
  intro s f rest hp
  rw [step_of_port_command hp]
  obtain ⟨c, v, h⟩ | ⟨e, h⟩ := execFrame_cases f (s.withPort rest)
  · rw [h]
    exact .inl ⟨⟨c, v, rfl⟩, not_failsWith_done _ _ v⟩
  · rw [h]
    exact .inr ⟨e.code, e.one_le_code, e.code_le_five, (s.withPort rest).raise_failsWith e⟩

/-- Settles O48: of the state before it, a frame sees `CRC` and the parameters alone. -/
theorem statusIsNotSticky : Obligations.StatusIsNotSticky := by
  intro f s t rest rest' hcrc hcfg hs ht
  rw [step_of_port_command hs, step_of_port_command ht]
  exact execFrame_nextAlike f (s := s.withPort rest) (t := t.withPort rest') hcrc hcfg

/-! ### The running checksum and its writers (R10, R11, R188) -/

/-- Settles O45: waiting keeps the state, and a move that is no writer's keeps `CRC`. -/
theorem crcWrittenOnlyByItsWriters : Obligations.CrcWrittenOnlyByItsWriters := by
  intro s t hw h
  obtain ⟨-, rfl⟩ | ⟨m, rest, hp, hm, -, -⟩ := step_next_cases h
  · rfl
  · exact hostMove_keeps_crc (s := s.withPort rest) (hw m rest hp) hm

/-- A command that neither reads nor writes `CRC` runs the same over another `CRC`. -/
theorem exec_setCrc {i : Instr} {s t : State} (c : Byte) (hr : readsCrc i = false) (hw : writesCrc i = false)
    (h : exec i s = .next t) : exec i (s.setCrc c) = .next (t.setCrc c) := by
  have hend := exec_sameEnding i (s := s) (t := s.setCrc c) rfl fun hr' => nomatch hr.symm.trans hr'
  rw [hw, h] at hend
  generalize exec i (s.setCrc c) = y at hend ⊢
  cases hend with
  | done v => rfl
  | raise e => rfl

/-- Settles O46: such a command commutes with a write of `CRC`. -/
theorem otherCommandsDoNotTouchCrc : Obligations.OtherCommandsDoNotTouchCrc := by
  intro i s t c hr hw h
  exact ⟨exec_keeps_crc hw h, t.setCrc c, exec_setCrc c hr hw h, .refl _, rfl, rfl⟩

/-- The `CRC` a move leaves depends on the `CRC` before it and the parameters alone. -/
theorem hostMove_crc_congr {m : HostMove} {s t s' t' : State} (hcrc : s.crc = t.crc) (hcfg : s.cfg = t.cfg)
    (hs : hostMove m s = .next s') (ht : hostMove m t = .next t') : s'.crc = t'.crc := by
  cases m with
  | command f =>
    obtain ⟨s'', t'', hs'', ht'', hcrc', -⟩ := execFrame_nextAlike f hcrc hcfg
    cases hs''.symm.trans hs
    cases ht''.symm.trans ht
    exact hcrc'
  | readRes => cases hs; cases ht; simpa using hcrc
  | reset => cases hs; cases ht; rfl

/-- A step on a waiting move, and what it leaves of the port and the parameters. -/
theorem step_cons_next {s : State} {m : HostMove} {rest : List HostMove} (hp : s.port = m :: rest) :
    ∃ t, step s = .next t ∧ hostMove m (s.withPort rest) = .next t ∧ t.port = rest ∧ t.cfg = s.cfg := by
  obtain ⟨t, h⟩ := hostMove_next m (s.withPort rest)
  obtain ⟨hport, hcfg⟩ := hostMove_port_cfg h
  exact ⟨t, (step_of_port_cons hp).trans h, h, hport, hcfg⟩

/-- Two machines of one `CRC`, the second without the moves that are no writer's, end with one `CRC`. -/
theorem run_filter_crc (cfg : Config) (ms : List HostMove) {s t : State} (hcrc : s.crc = t.crc)
    (hs : s.cfg = cfg) (ht : t.cfg = cfg) (hps : s.port = ms) (hpt : t.port = ms.filter (HostMove.mayWriteCrc cfg)) :
    ∃ s' t', core.run ms.length s = .next s' ∧
      core.run (ms.filter (HostMove.mayWriteCrc cfg)).length t = .next t' ∧ s'.crc = t'.crc := by
  induction ms generalizing s t with
  | nil => exact ⟨s, t, rfl, rfl, hcrc⟩
  | cons m ms ih =>
    obtain ⟨s₁, hstep, hmove, hp₁, hc₁⟩ := step_cons_next hps
    rw [List.length_cons, run_succ_of_step _ hstep]
    cases hw : m.mayWriteCrc cfg with
    | true =>
      rw [List.filter_cons_of_pos hw] at hpt ⊢
      obtain ⟨t₁, hstep', hmove', hp₁', hc₁'⟩ := step_cons_next hpt
      rw [List.length_cons, run_succ_of_step _ hstep']
      have hcrc₁ : s₁.crc = t₁.crc := 
        hostMove_crc_congr (s := s.withPort ms) (t := t.withPort (ms.filter _)) hcrc (hs.trans ht.symm) hmove hmove'
      exact ih hcrc₁ (hc₁.trans hs) (hc₁'.trans ht) hp₁ hp₁'
    | false =>
      rw [List.filter_cons_of_neg (by simp [hw])] at hpt ⊢
      have hkeep : s₁.crc = s.crc := hostMove_keeps_crc (s := s.withPort ms) (hs ▸ hw) hmove
      exact ih (hkeep.trans hcrc) (hc₁.trans hs) ht hp₁ hpt

/-- Settles O52, by induction on the list of moves. -/
theorem interleavedMovesKeepCrc : Obligations.InterleavedMovesKeepCrc :=
  fun ms s => run_filter_crc s.cfg ms (s := { s with port := ms }) (t := { s with port := _ }) rfl rfl rfl rfl rfl

/-! ### The identifier's bytes (R21, R34, R111) -/

theorem toNat_append_eq_mul_add {v w : Nat} (x : BitVec v) (y : BitVec w) :
    (x ++ y).toNat = x.toNat * 2 ^ w + y.toNat := by
  rw [BitVec.toNat_append, ← Nat.shiftLeft_add_eq_or_of_lt y.isLt, Nat.shiftLeft_eq]

/-- The sum of R111 is the number of the eight bytes joined, the first one most significant. -/
theorem zext64Nat_serialNumber (b : SerialBuffer) :
    zext64Nat (serialNumber b) = (b.s0 ++ b.s2 ++ b.s4 ++ b.s6 ++ b.s8 ++ b.s9 ++ b.s11 ++ b.s12 : BitVec 64) := by
  apply BitVec.eq_of_toNat_eq
  simp only [zext64Nat, serialNumber, BitVec.toNat_ofNat, toNat_append_eq_mul_add]
  omega

theorem execDecSn_of_rv {b : SerialBuffer} {s t : State} (h : exec (.decSn b) s = .next t) (hrv : t.rv = true) :
    t = s.done (zext64Nat (serialNumber b)) := by
  simp only [exec, execDecSn] at h
  split at h
  · split at h
    · cases h; rfl
    · cases h; cases hrv
  · cases h; cases hrv

/-- Settles O30: a valid result is the sum of R111. -/
theorem serialNumberBytesInOrder : Obligations.SerialNumberBytesInOrder := by
  intro b s t h hrv
  rw [execDecSn_of_rv h hrv, State.done_res, zext64Nat_serialNumber]

end Sys2Proof.Machine
end

section
/-! PROOFS of the statements about steps and sequences of frames (20_memory.md R38 to R42). -/

namespace Sys2Proof.Machine

open Host

/-! ### One step -/

/-- Settles O5: the step runs the frame, and the frame decodes to the command. -/
theorem stepRunsDecodedCommand : Obligations.StepRunsDecodedCommand := by
  intro s f rest i hp hd
  rw [step_of_port_command hp]
  exact execFrame_of_decode_ok (s := s.withPort rest) hd

/-- Settles O9: `RV` decides whether the read draws (U1). -/
theorem hostReadHasNoSideEffect : Obligations.HostReadHasNoSideEffect := by
  intro s rest hp
  rw [step_of_port_cons hp]
  exact ⟨fun hrv => congrArg Outcome.next ((s.withPort rest).readRes_of_rv hrv),
    fun hrv => ⟨_, _, congrArg Outcome.next ((s.withPort rest).readRes_of_not_rv hrv)⟩⟩

/-! ### A command issued again (R39) -/

theorem exec_keeps_cfg {i : Instr} {s t : State} (h : exec i s = .next t) : t.cfg = s.cfg := by
  obtain ⟨c, v, h', -⟩ | ⟨e, h', -, -⟩ := exec_cases i s
  · rw [h'] at h; cases h; rfl
  · rw [h'] at h; cases h; rfl

theorem writesCrc_cases {i : Instr} (h : writesCrc i = true) :
    i = .crcClr ∨ (∃ b, i = .crcByte b) ∨ ∃ ds, i = .crcSpan ds := by
  cases i with
  | crcClr => exact .inl rfl
  | crcByte b => exact .inr (.inl ⟨b, rfl⟩)
  | crcSpan ds => exact .inr (.inr ⟨ds, rfl⟩)
  | _ => cases h

/-- A command that has left `CRC` as it was sees the same `CRC` and parameters when issued again, so it ends alike. -/
theorem exec_again_of_crc_kept {i : Instr} {s t : State} (hcrc : t.crc = s.crc) (h : exec i s = .next t) :
    ∃ t', exec i t = .next t' ∧ t.LooksLike t' := by
  obtain ⟨u, t', hu, ht', hlike⟩ :=
    (exec_sameEnding i (exec_keeps_cfg h).symm fun _ => hcrc.symm).nextAlike hcrc.symm
  cases hu.symm.trans h
  exact ⟨t', ht', hlike⟩

/-- Settles O49: of the writers of `CRC`, `CRC.CLR` writes a constant and an empty span writes `CRC` itself. -/
theorem idempotentCommands : Obligations.IdempotentCommands := by
  intro i s t hbyte hspan h
  cases hw : writesCrc i with
  | false => exact exec_again_of_crc_kept (exec_keeps_crc hw h) h
  | true =>
    obtain rfl | ⟨b, rfl⟩ | ⟨ds, rfl⟩ := writesCrc_cases hw
    · cases h
      exact ⟨_, rfl, .refl _⟩
    · exact absurd rfl (hbyte b)
    · cases hspan ds rfl
      exact exec_again_of_crc_kept (by cases h; rfl) h

/-! ### A sequence of frames (R42) -/

/-- A frame does not see the moves waiting behind it. -/
theorem execFrame_withPort {f : Frame} {s t : State} (p : List HostMove) (h : execFrame f s = .next t) :
    execFrame f (s.withPort p) = .next (t.withPort p) := by
  cases hd : decode s.cfg f with
  | ok i =>
    rw [execFrame_of_decode_ok hd] at h
    rw [execFrame_of_decode_ok (s := s.withPort p) hd]
    have hend := exec_sameEnding i (s := s) (t := s.withPort p) rfl fun _ => rfl
    rw [h] at hend
    generalize exec i (s.withPort p) = y, writesCrc i = w at hend ⊢
    cases hend with
    | wrote c v => rfl
    | done v => rfl
    | raise e => rfl
  | error e =>
    rw [execFrame_of_decode_error hd] at h
    cases h
    exact execFrame_of_decode_error (s := s.withPort p) hd

/-- The step on a frame is the same whatever waits behind it, and leaves that waiting. -/
theorem step_command_any_rest (f : Frame) (s : State) :
    ∃ t : State, ∀ rest, step (s.withPort (.command f :: rest)) = .next (t.withPort rest) := by
  obtain ⟨t, ht⟩ := hostMove_next (.command f) s
  refine ⟨t, fun rest => ?_⟩
  rw [step_of_port_command (s.withPort_port _), State.withPort_withPort]
  exact execFrame_withPort rest ht

/-- Settles O51, by induction on the frames: the first step leaves the same block whether the others wait behind it or
are presented later. -/
theorem sequenceIsFoldOfSteps : Obligations.SequenceIsFoldOfSteps := by
  intro fs
  induction fs with
  | nil => exact fun s => rfl
  | cons f fs ih =>
    intro s
    obtain ⟨t, hstep⟩ := step_command_any_rest f s
    have hwaiting : core.run (fs.length + 1) (s.withPort (.command f :: fs.map .command)) =
        core.run fs.length (t.withPort (fs.map .command)) := run_succ_of_step _ (hstep _)
    have halone : .next (t.withPort []) = step (s.withPort [.command f]) := (hstep []).symm
    exact hwaiting.trans ((ih t).trans (congrArg (fun o => List.foldl _ o fs) halone))

end Sys2Proof.Machine
end

section
/-! PROOFS of the statements about the encoding (30_encoding.md): the round trips, the opcode table, illegal frames,
and the pseudo-commands. -/

namespace Sys2Proof

/-! ### The round trips of the encoder and the decoder (R50 to R53, R57, R58) -/

/-- Reading what a command writes down gives the command back. -/
theorem readOperands_operandBytes (i : Instr) : i.opcode.readOperands i.operandBytes = .ok i := by
  cases i <;> rfl

/-- Settles O2: the opcode byte selects the command's opcode, which reads the operand bytes back. -/
theorem decodeInvertsEncode : Obligations.DecodeInvertsEncode := by
  intro cfg i hw
  rw [encode, decode_cons (encode_length_le cfg i hw)]
  exact readOperands_operandBytes i

/-- A command whose frame the port takes is well formed: the converse of `encode_length_le`. -/
theorem wellFormed_of_encode_length_le {cfg : Config} {i : Instr} (h : (encode i).length ≤ cfg.maxFrame) :
    i.wellFormed cfg = true := by
  cases i with
  | crcSpan ds => exact decide_eq_true h
  | _ => rfl

/-- Settles O3: a decoded frame is an opcode byte and the operand bytes that opcode reads as the command. -/
theorem encodeInvertsDecode : Obligations.EncodeInvertsDecode := by
  intro cfg f i hd
  obtain ⟨o, args, rfl, hlen, hread⟩ := decode_ok_cases hd
  obtain ⟨rfl, rfl⟩ := readOperands_ok hread
  exact ⟨wellFormed_of_encode_length_le hlen, rfl⟩

/-- A frame of at most 15 bytes that spells a command decodes to it, whatever `MAX_FRAME` is (R4). -/
theorem decode_of_encode_eq {cfg : Config} {f : Frame} {i : Instr} (hf : encode i = f) (hlen : f.length ≤ 15) :
    decode cfg f = .ok i := by
  subst hf
  exact decodeInvertsEncode cfg i (wellFormed_of_encode_length_le (hlen.trans cfg.fifteen_le_maxFrame))

/-- Settles O1: each frame is, byte by byte, the encoding of its command, and short enough for every port. -/
theorem writtenOutFramesDecode : Obligations.WrittenOutFramesDecode := by
  intro cfg
  refine ⟨?_, ?_, ?_, ?_, ?_, ?_, ?_, ?_⟩
  all_goals exact decode_of_encode_eq rfl (by decide)

/-! ### The decoder and the rows of opcode_table.json (R64) -/

open Laws.FrameShape

theorem Opcode.byte_injective {o o' : Opcode} (h : o.byte = o'.byte) : o = o' := by
  simpa using congrArg Opcode.ofByte? h

theorem Opcode.operandCount_le_fourteen {o : Opcode} {n : Nat} (h : o.operandCount = some n) : n ≤ 14 := by
  cases o <;> cases h <;> decide

/-- A command has as many operand bytes as its format says (R51). -/
theorem operandBytes_length {i : Instr} {n : Nat} (h : i.opcode.operandCount = some n) : i.operandBytes.length = n := by
  cases i <;> cases h <;> rfl

/-- An opcode reads every list of operand bytes of its format's length (R51). -/
theorem exists_readOperands_ok {o : Opcode} {args : List Byte} (h : ∀ n, o.operandCount = some n → args.length = n) :
    ∃ i, o.readOperands args = .ok i := by
  cases o with
  | crcClr => match args, h 0 rfl with | [], _ => exact ⟨_, rfl⟩
  | crcSpan => exact ⟨.crcSpan args, rfl⟩
  | crcByte | crcChk | urGres | urGhtr | hrGlvl => match args, h 1 rfl with | [_], _ => exact ⟨_, rfl⟩
  | decTlh | urSres | urShtr | hrSlvl => match args, h 2 rfl with | [_, _], _ => exact ⟨_, rfl⟩
  | decRh | decT => match args, h 3 rfl with | [_, _, _], _ => exact ⟨_, rfl⟩
  | decSn => match args, h 14 rfl with | [_, _, _, _, _, _, _, _, _, _, _, _, _, _], _ => exact ⟨_, rfl⟩

/-- A row's `length` is the format's operand count and the bound of the port (R64, R51). -/
theorem rowOf_admits_iff (cfg : Config) (o : Opcode) (k : Nat) :
    (rowOf o).length.admits cfg (k + 1) = true ↔
      k + 1 ≤ cfg.maxFrame ∧ ∀ n, o.operandCount = some n → k = n := by
  have h15 := cfg.fifteen_le_maxFrame
  cases hn : o.operandCount with
  | none => simp [rowOf, hn, FrameLength.admits]
  | some n =>
    have h14 := Opcode.operandCount_le_fourteen hn
    simp only [rowOf, hn, Option.elim_some, FrameLength.admits, beq_iff_eq, Option.some.injEq, forall_eq']
    omega

/-- Behind a known opcode byte, the frames that decode are those of the length of the opcode's row. -/
theorem exists_decode_ok_iff_admits (cfg : Config) (o : Opcode) (args : List Byte) :
    (∃ i, decode cfg (o.byte :: args) = .ok i) ↔ (rowOf o).length.admits cfg (args.length + 1) = true := by
  rw [rowOf_admits_iff]
  constructor
  · rintro ⟨i, hd⟩
    obtain ⟨o', args', hf, hlen, hread⟩ := decode_ok_cases hd
    obtain ⟨hbyte, rfl⟩ := List.cons.inj hf
    obtain rfl := Opcode.byte_injective hbyte
    obtain ⟨rfl, rfl⟩ := readOperands_ok hread
    exact ⟨hlen, fun n => operandBytes_length⟩
  · rintro ⟨hlen, hcount⟩
    rw [decode_cons hlen]
    exact exists_readOperands_ok hcount

theorem mem_opcodeTable_iff {row : OpcodeRow} : row ∈ opcodeTable ↔ ∃ o, rowOf o = row := by
  have hall : ∀ o, o ∈ Opcode.all := fun o => by cases o <;> decide
  simp [opcodeTable_eq, hall]

/-- A frame that selects a row begins with the row's opcode byte and has the row's length (R64). -/
theorem selectedBy_rowOf {cfg : Config} {o : Opcode} {f : Frame} (h : (rowOf o).selectedBy cfg f = true) :
    ∃ args, f = o.byte :: args ∧ (rowOf o).length.admits cfg (args.length + 1) = true := by
  cases f with
  | nil => cases h
  | cons op args =>
    obtain ⟨hop, hadm⟩ := Bool.and_eq_true_iff.mp h
    have hmask : op &&& 0xff#8 = op := BitVec.and_allOnes (w := 8)
    exact ⟨args, by rw [← hmask, show op &&& 0xff#8 = o.byte from eq_of_beq hop], hadm⟩

/-- A rejected frame selects no row: a row it selected would make it decode. -/
theorem selectedRows_of_decode_error {cfg : Config} {f : Frame} {e : FrameError} (h : decode cfg f = .error e) :
    selectedRows cfg f = [] := by
  refine List.filter_eq_nil_iff.mpr fun row hrow hsel => ?_
  obtain ⟨o, rfl⟩ := mem_opcodeTable_iff.mp hrow
  obtain ⟨args, rfl, hadm⟩ := selectedBy_rowOf hsel
  obtain ⟨i, hd⟩ := (exists_decode_ok_iff_admits cfg o args).mpr hadm
  exact nomatch h.symm.trans hd

/-- Settles O4: an accepted frame has the length of its opcode's row, the only one it can select. -/
theorem decoderAgreesWithOpcodeTable : Obligations.DecoderAgreesWithOpcodeTable := by
  intro cfg f
  cases hd : decode cfg f with
  | ok i =>
    obtain ⟨o, args, rfl, -, hread⟩ := decode_ok_cases hd
    obtain ⟨rfl, -⟩ := readOperands_ok hread
    have hadm := (exists_decode_ok_iff_admits cfg i.opcode args).mp ⟨i, hd⟩
    exact .inl ⟨i, rfl, by rw [selectedRows_cons, if_pos hadm]; rfl⟩
  | error e => exact .inr ⟨⟨e, rfl⟩, selectedRows_of_decode_error hd⟩

end Sys2Proof

namespace Sys2Proof.Machine

open Host Laws.FrameShape

/-! ### Illegal frames (R56) -/

/-- An empty frame, an over-long one, one of an unknown opcode byte, one of a known opcode byte and the wrong length. -/
def IllegalByTable (cfg : Config) (f : Frame) : Prop :=
  f = [] ∨ cfg.maxFrame < f.length ∨
    (∃ op args, f = op :: args ∧ ∀ row ∈ opcodeTable, row.pattern ≠ op) ∨
    (∃ op args row, f = op :: args ∧ row ∈ opcodeTable ∧ row.pattern = op ∧ row.length.admits cfg f.length = false)

/-- A frame that decodes is illegal in none of the four ways. -/
theorem not_illegalByTable_of_decode_ok {cfg : Config} {f : Frame} {i : Instr} (hd : decode cfg f = .ok i) :
    ¬IllegalByTable cfg f := by
  obtain ⟨o, args, rfl, hlen, -⟩ := decode_ok_cases hd
  rintro (hnil | hlong | ⟨op, args', hf, hunknown⟩ | ⟨op, args', row, hf, hrow, hpattern, hadm⟩)
  · cases hnil
  · exact Nat.not_lt.mpr hlen hlong
  · cases hf
    exact hunknown (rowOf o) (mem_opcodeTable_iff.mpr ⟨o, rfl⟩) rfl
  · cases hf
    obtain ⟨o', rfl⟩ := mem_opcodeTable_iff.mp hrow
    obtain rfl : o' = o := Opcode.byte_injective hpattern
    exact Bool.eq_false_iff.mp hadm ((exists_decode_ok_iff_admits cfg o' args).mp ⟨i, hd⟩)

/-- Settles O6: such a frame does not decode, so the step raises `IllegalCommand`. -/
theorem illegalFrameRaisesIllegalCommand : Obligations.IllegalFrameRaisesIllegalCommand := by
  intro s f rest hp hillegal
  rw [step_of_port_command hp]
  cases hd : decode s.cfg f with
  | ok i => exact absurd hillegal (not_illegalByTable_of_decode_ok hd)
  | error e =>
    rw [execFrame_of_decode_error (s := s.withPort rest) hd]
    exact (s.withPort rest).raise_failsWith .illegalCommand

/-! ### The pseudo-commands (R61) -/

/-- A machine whose next move is a well-formed command runs on from the state the command leaves. -/
theorem run_command {i : Instr} {s t : State} {rest : List HostMove} (n : Nat) (hw : i.wellFormed s.cfg = true)
    (h : exec i (s.withPort rest) = .next t) :
    core.run (n + 1) (s.withPort (.command (encode i) :: rest)) = core.run n t := by
  refine run_succ_of_step n ?_
  rw [step_of_port_command (s.withPort_port _)]
  exact (execFrame_of_decode_ok (s := s.withPort rest) (decodeInvertsEncode s.cfg i hw)).trans h

/-- What `CRC.SPAN ds` leaves (R74): the span folded onto `CRC`. -/
def State.afterSpan (s : State) (ds : List Byte) : State :=
  (s.setCrc (crc8 s.crc ds)).done (zext64 (crc8 s.crc ds))

/-- `CRC.CLR`, then `CRC.SPAN ds`: the span folded onto a new accumulator, whatever `CRC` was. -/
theorem run_clr_span {ds : List Byte} {s : State} (n : Nat) (rest : List HostMove)
    (hlen : ds.length + 1 ≤ s.cfg.maxFrame) :
    core.run (n + 2) (s.withPort (commandMoves [.crcClr, .crcSpan ds] ++ rest)) =
      core.run n (((s.setCrc 0x00).afterSpan ds).withPort rest) :=
  calc core.run (n + 2) (s.withPort (commandMoves [.crcClr, .crcSpan ds] ++ rest))
    _ = core.run (n + 1) (((s.setCrc 0x00).done 0).withPort (.command (encode (.crcSpan ds)) :: rest)) :=
        run_command (n + 1) rfl rfl
    _ = core.run n (((s.setCrc 0x00).afterSpan ds).withPort rest) :=
        run_command (i := .crcSpan ds) n (decide_eq_true hlen) rfl

/-- `CRC.CHK c` ends with a next state that keeps `CRC`, and whose `STATUS` says whether `CRC` is `c` (R75). -/
theorem exec_crcChk_next (c : Byte) (s : State) :
    ∃ t, exec (.crcChk c) s = .next t ∧ t.crc = s.crc ∧ (t.rv = true ↔ s.crc = c) ∧ (s.crc ≠ c → t.err = 1) := by
  simp only [exec, execCrcChk]
  split
  next h => exact ⟨_, rfl, rfl, iff_of_true rfl h, fun hne => absurd h hne⟩
  next h => exact ⟨_, rfl, rfl, iff_of_false Bool.false_ne_true h, fun _ => rfl⟩

/-- Settles O54: each expansion runs command by command; the span's fold does not depend on the `CRC` it found. -/
theorem pseudoCommandsValidate : Obligations.PseudoCommandsValidate := by
  refine ⟨fun ds s hlen => run_clr_span 0 [] hlen, fun ds c s hlen => ?_, fun s => ?_⟩
  · obtain ⟨t, ht, hcrc, hrv, herr⟩ := exec_crcChk_next c (((s.setCrc 0x00).afterSpan ds).withPort [])
    refine ⟨t, ?_, hcrc, hrv, herr⟩
    exact (run_clr_span 1 [.command (encode (.crcChk c))] hlen).trans (run_command 0 rfl ht)
  · have hspan : (Instr.crcSpan []).wellFormed s.cfg = true :=
      wellFormed_of_encode_length_le (Nat.one_le_of_lt s.cfg.fifteen_le_maxFrame)
    exact run_command (s := s) 0 hspan rfl

end Sys2Proof.Machine
end

section
/-! PROOFS of the statements about the checksum (40_checksum.md): the commands of the Checksum Engine (R72 to R75), the
two functions (R70, R71), and their laws (R76). -/

namespace Sys2Proof.Machine

open Host

/-! ### The commands (R72 to R75) -/

/-- Settles O11. -/
theorem crcClrCreatesAccumulator : Obligations.CrcClrCreatesAccumulator := ⟨rfl, fun _ => rfl⟩

/-- Settles O12. -/
theorem crcByteFoldsOneByte : Obligations.CrcByteFoldsOneByte := ⟨fun _ => rfl, fun _ _ => rfl⟩

theorem exec_crcChk_of_eq {c : Byte} {s : State} (h : s.crc = c) :
    exec (.crcChk c) s = .next (s.done (zext64 s.crc)) := if_pos h

theorem exec_crcChk_of_ne {c : Byte} {s : State} (h : s.crc ≠ c) :
    exec (.crcChk c) s = .next (s.raise .checksumFailure) := if_neg h

/-- Settles O14: the comparison decides between `done` and `raise`, and neither writes `CRC`. -/
theorem crcChkCompares : Obligations.CrcChkCompares := by
  refine ⟨fun _ => rfl, fun c s => ⟨exec_crcChk_of_eq, fun h => ?_⟩⟩
  rw [exec_crcChk_of_ne h]
  exact s.raise_failsWith .checksumFailure

theorem exec_crcSpan (ds : List Byte) (s : State) : exec (.crcSpan ds) s = .next (s.afterSpan ds) := rfl

/-- `CRC.BYTE` is the span of one byte. -/
theorem exec_crcByte (b : Byte) (s : State) : exec (.crcByte b) s = .next (s.afterSpan [b]) := rfl

/-- The accumulator persists between commands (R76 (a)). -/
theorem State.afterSpan_afterSpan (s : State) (xs ys : List Byte) :
    (s.afterSpan xs).afterSpan ys = s.afterSpan (xs ++ ys) :=
  congrArg (fun c => (s.setCrc c).done (zext64 c)) (crc8_append s.crc xs ys).symm

/-- Settles O20: the second span folds onto the `CRC` the first one left. -/
theorem splitSpanChains : Obligations.SplitSpanChains := by
  refine ⟨crc8_append, fun xs ys s => ⟨s.afterSpan xs, exec_crcSpan xs s, ?_⟩⟩
  rw [exec_crcSpan, exec_crcSpan, s.afterSpan_afterSpan]

/-- Commands `CRC.BYTE` one after another leave what the span of their bytes leaves. -/
theorem foldl_crcByte_eq_afterSpan {run : Outcome State Fault Refusal → Byte → Outcome State Fault Refusal}
    (hrun : ∀ t d, run (.next t) d = exec (.crcByte d) t) (s : State) (b : Byte) (bs : List Byte) :
    (b :: bs).foldl run (.next s) = .next (s.afterSpan (b :: bs)) := by
  rw [List.foldl_cons, hrun, exec_crcByte]
  induction bs generalizing s b with
  | nil => rfl
  | cons b' bs ih =>
    rw [List.foldl_cons, hrun, exec_crcByte, ih, State.afterSpan_afterSpan, List.singleton_append]

/-- Settles O13: a span is folded in list order, as the commands `CRC.BYTE` are issued. -/
theorem crcSpanFoldsSpan : Obligations.CrcSpanFoldsSpan := by
  refine ⟨fun _ => rfl, fun ds s => ⟨rfl, fun hne => ?_⟩⟩
  cases ds with
  | nil => exact absurd rfl hne
  | cons b bs =>
    rw [exec_crcSpan]
    exact (foldl_crcByte_eq_afterSpan (fun _ _ => rfl) s b bs).symm

/-! ### The step and the fold (R70, R71) -/

theorem crcRounds_eq_iterate (n : Nat) (t : Byte) : crcRounds n t = crcRound^[n] t := by
  induction n generalizing t with
  | zero => rfl
  | succ n ih => rw [crcRounds_succ, ih, Function.iterate_succ_apply]

/-- Settles O15: a byte's high bit is its bit 7. -/
theorem crcFunctionsFollowAlgorithm : Obligations.CrcFunctionsFollowAlgorithm := by
  refine ⟨fun c b => ?_, crc8_nil, crc8_cons⟩
  have hround : crcRound = fun t : Byte => if t.getLsbD 7 then (t <<< 1) ^^^ 0x31#8 else t <<< 1 := by
    funext t
    rw [crcRound, BitVec.msb_eq_getLsbD_last]
    rfl
  rw [← hround, ← crcRounds_eq_iterate]
  rfl

/-! ### The table and its permutation (R76 (b)) -/

theorem crc8Step_eq_crcTable (c b : Byte) : crc8Step c b = crcTable (c ^^^ b) := (crcTable_eq (c ^^^ b)).symm

theorem getLsbD_shiftLeft_one_succ (t : Byte) {i : Nat} (hi : i < 7) : (t <<< 1).getLsbD (i + 1) = t.getLsbD i := by
  simp [show i + 1 < 8 by omega, show i < 8 by omega]

/-- One iteration loses nothing: where the bit shifted out was set, the polynomial sets bit 0, which the shift has
cleared. -/
theorem eq_zero_of_crcRound_eq_zero {t : Byte} (h : crcRound t = 0#8) : t = 0#8 := by
  unfold crcRound at h
  split at h
  · have hbit : (t <<< 1 ^^^ crcPoly).getLsbD 0 = true := by simp [crcPoly]
    rw [h] at hbit
    cases hbit
  · next hmsb =>
    rw [BitVec.msb_eq_getLsbD_last] at hmsb
    refine BitVec.eq_of_getLsbD_eq fun i hi => ?_
    rcases Nat.lt_succ_iff_lt_or_eq.mp hi with hlt | rfl
    · rw [← getLsbD_shiftLeft_one_succ t hlt, h]
      simp
    · simpa using hmsb

theorem crcRound_injective : Function.Injective crcRound := by
  intro a b h
  have hxor : crcRound (a ^^^ b) = 0#8 := by rw [crcRound_xor, h, BitVec.xor_self]
  exact BitVec.xor_eq_zero_iff.mp (eq_zero_of_crcRound_eq_zero hxor)

theorem crcTable_injective : Function.Injective crcTable := by
  intro a b h
  rw [crcTable_eq, crcTable_eq, crcRounds_eq_iterate, crcRounds_eq_iterate] at h
  exact crcRound_injective.iterate 8 h

/-- There are finitely many bytes, so an injection of them is a permutation. -/
theorem crcTable_bijective : Function.Bijective crcTable :=
  have : Finite Byte := Finite.of_injective BitVec.toFin BitVec.toFin_injective
  Finite.injective_iff_bijective.mp crcTable_injective

theorem xor_involutive (c : Byte) : Function.Involutive (c ^^^ ·) := by
  intro b
  simp

/-- XOR with a fixed byte permutes the bytes, and so does the table. -/
theorem crc8Step_bijective (c : Byte) : Function.Bijective (crc8Step c) := by
  rw [show crc8Step c = crcTable ∘ (c ^^^ ·) from funext (crc8Step_eq_crcTable c)]
  exact crcTable_bijective.comp (xor_involutive c).bijective

theorem crc8Step_comm (c b : Byte) : crc8Step c b = crc8Step b c := by
  rw [crc8Step, BitVec.xor_comm, ← crc8Step]

/-- Settles O16: what holds in one argument holds in the other, since the step is symmetric in them. -/
theorem crcStepIsBijective : Obligations.CrcStepIsBijective := by
  refine ⟨crc8Step_eq_crcTable, crcTable_bijective, fun b => ?_, crc8Step_bijective⟩
  simpa only [crc8Step_comm _ b] using crc8Step_bijective b

/-! ### Linearity over XOR (R76 (c)) -/

theorem crc8Step_xor (c₁ c₂ b₁ b₂ : Byte) :
    crc8Step (c₁ ^^^ c₂) (b₁ ^^^ b₂) = crc8Step c₁ b₁ ^^^ crc8Step c₂ b₂ := by
  have hswap : (c₁ ^^^ c₂) ^^^ (b₁ ^^^ b₂) = (c₁ ^^^ b₁) ^^^ (c₂ ^^^ b₂) := by ac_rfl
  rw [crc8Step, hswap, crcRounds_xor]
  rfl

theorem crc8_zipWith_xor (c₁ c₂ : Byte) {xs ys : List Byte} (h : xs.length = ys.length) :
    crc8 (c₁ ^^^ c₂) (List.zipWith (fun x y : Byte => x ^^^ y) xs ys) = crc8 c₁ xs ^^^ crc8 c₂ ys := by
  induction xs generalizing c₁ c₂ ys with
  | nil => cases ys with
    | nil => rfl
    | cons y ys => cases h
  | cons x xs ih => cases ys with
    | nil => cases h
    | cons y ys => simp only [List.zipWith_cons_cons, crc8_cons, crc8Step_xor, ih _ _ (Nat.succ.inj h)]

/-- Folding the accumulator into itself clears it (R76 (d)). -/
theorem crc8Step_self (c : Byte) : crc8Step c c = 0x00 := by
  rw [crc8Step_eq_crcTable, BitVec.xor_self]
  decide

theorem crc8_replicate_zero (n : Nat) : crc8 0x00 (List.replicate n 0x00) = 0x00 := by
  induction n with
  | zero => rfl
  | succ n ih => rw [List.replicate_succ, crc8_cons, crc8Step_self, ih]

/-- Settles O17. -/
theorem crcIsLinear : Obligations.CrcIsLinear :=
  ⟨crc8Step_self 0x00, crc8Step_xor, fun c₁ c₂ _ _ => crc8_zipWith_xor c₁ c₂, crc8_replicate_zero⟩

/-! ### The zero residue (R76 (d), R78) -/

theorem crc8_concat (c : Byte) (xs : List Byte) (b : Byte) : crc8 c (xs ++ [b]) = crc8Step (crc8 c xs) b :=
  crc8_append c xs [b]

/-- A step leaves zero exactly on the accumulator's own byte, since the step is injective in the byte. -/
theorem crc8Step_eq_zero_iff {c b : Byte} : crc8Step c b = 0x00 ↔ c = b := by
  refine ⟨fun h => ?_, fun h => h ▸ crc8Step_self c⟩
  exact (crc8Step_bijective c).injective ((crc8Step_self c).trans h.symm)

/-- Settles O18: the last step of the fold leaves zero exactly when the trailing byte is the accumulator. -/
theorem zeroResidueIsTheCheck : Obligations.ZeroResidueIsTheCheck := by
  have hresidue (xs : List Byte) (k : Byte) : check xs k = true ↔ crc8 0x00 (xs ++ [k]) = 0x00 := by
    rw [check_eq_true, crc8_concat, crc8Step_eq_zero_iff]
  refine ⟨crc8Step_self, fun xs => ?_, fun xs k => ⟨check_eq_true xs k, hresidue xs k, ?_⟩⟩
  · rw [crc8_concat, crc8Step_self]
  · rw [Bool.eq_iff_iff, residueCheck_eq_true, hresidue]

end Sys2Proof.Machine
end

section
/-! PROOFS of the polynomial reading of the checksum (40_checksum.md R76 (e)). The quotient ring of the polynomials over
GF(2) by the divisor is `AdjoinRoot crcPolynomial`: there an iteration of R70 is multiplication by `x`. -/

namespace Sys2Proof.Machine

open Polynomial

theorem crcPolynomial_natDegree : crcPolynomial.natDegree = 8 := by
  unfold crcPolynomial
  compute_degree!

theorem crcPolynomial_monic : crcPolynomial.Monic := by
  unfold crcPolynomial
  monicity!

theorem crcPolynomial_degree : crcPolynomial.degree = 8 :=
  (degree_eq_iff_natDegree_eq crcPolynomial_monic.ne_zero).mpr crcPolynomial_natDegree

/-! ### Bytes as polynomials -/

theorem bytePoly_degree_lt (b : Byte) : (bytePoly b).degree < 8 := by
  refine mem_degreeLT.mp (Submodule.sum_mem _ fun i hi => mem_degreeLT.mpr ?_)
  split
  · rw [degree_X_pow]
    exact_mod_cast Finset.mem_range.mp hi
  · exact WithBot.bot_lt_coe 8

/-- XOR is addition of polynomials over GF(2). -/
theorem bytePoly_xor (a b : Byte) : bytePoly (a ^^^ b) = bytePoly a + bytePoly b := by
  rw [bytePoly, bytePoly, bytePoly, ← Finset.sum_add_distrib]
  refine Finset.sum_congr rfl fun i _ => ?_
  rw [BitVec.getLsbD_xor]
  cases a.getLsbD i <;> cases b.getLsbD i <;> simp [CharTwo.add_self_eq_zero]

theorem bytePoly_zero : bytePoly 0x00 = 0 := by simp [bytePoly]

/-- The shift is multiplication by `x`, but for the bit shifted out. -/
theorem X_mul_bytePoly (t : Byte) : X * bytePoly t = bytePoly (t <<< 1) + if t.msb then X ^ 8 else 0 := by
  have hlow : bytePoly (t <<< 1) = ∑ i ∈ Finset.range 7, X * if t.getLsbD i then X ^ i else 0 := by
    rw [bytePoly, Finset.sum_range_succ', if_neg (by simp), add_zero]
    refine Finset.sum_congr rfl fun i hi => ?_
    rw [getLsbD_shiftLeft_one_succ t (Finset.mem_range.mp hi), mul_ite, mul_zero, pow_succ']
  rw [hlow, bytePoly, Finset.mul_sum, Finset.sum_range_succ, BitVec.msb_eq_getLsbD_last]
  simp [pow_succ']

theorem bytePoly_crcPoly : bytePoly crcPoly = 1 + X ^ 4 + X ^ 5 := by
  simp [bytePoly, crcPoly, Finset.sum_range_succ]

/-- `CRC_POLY` is the divisor below `x^8`. -/
theorem crcPolynomial_eq : crcPolynomial = X ^ 8 + bytePoly crcPoly := by
  rw [crcPolynomial, bytePoly_crcPoly]
  ring

/-- An iteration multiplies by `x`, and takes the divisor away if the product has degree 8. -/
theorem bytePoly_crcRound (t : Byte) :
    bytePoly (crcRound t) = X * bytePoly t + if t.msb then crcPolynomial else 0 := by
  rw [X_mul_bytePoly, crcRound]
  cases t.msb with
  | false => simp
  | true =>
    have hcancel : (X : (ZMod 2)[X]) ^ 8 + X ^ 8 = 0 := CharTwo.add_self_eq_zero _
    simp only [if_true, bytePoly_xor, crcPolynomial_eq]
    linear_combination -hcancel

/-! ### The checksum in the quotient ring -/

open AdjoinRoot

theorem mk_bytePoly_crcRounds (n : Nat) (t : Byte) :
    mk crcPolynomial (bytePoly (crcRounds n t)) = mk crcPolynomial (bytePoly t * X ^ n) := by
  induction n generalizing t with
  | zero => simp [crcRounds]
  | succ n ih =>
    have hround : mk crcPolynomial (bytePoly (crcRound t)) = mk crcPolynomial (X * bytePoly t) := by
      rw [bytePoly_crcRound, map_add]
      cases t.msb <;> simp
    rw [crcRounds_succ, ih, map_mul, hround, ← map_mul]
    congr 1
    ring

theorem mk_bytePoly_crc8Step (c b : Byte) :
    mk crcPolynomial (bytePoly (crc8Step c b)) = mk crcPolynomial ((bytePoly c + bytePoly b) * X ^ 8) := by
  rw [crc8Step, mk_bytePoly_crcRounds, bytePoly_xor]

theorem spanPoly_concat (bs : List Byte) (b : Byte) : spanPoly (bs ++ [b]) = spanPoly bs * X ^ 8 + bytePoly b :=
  List.foldl_concat ..

theorem mk_bytePoly_crc8 (bs : List Byte) :
    mk crcPolynomial (bytePoly (crc8 0x00 bs)) = mk crcPolynomial (spanPoly bs * X ^ 8) := by
  induction bs using List.reverseRecOn with
  | nil => rw [crc8_nil, bytePoly_zero, spanPoly, List.foldl_nil, zero_mul]
  | append_singleton bs b ih =>
    rw [crc8_concat, mk_bytePoly_crc8Step, map_mul, map_add, ih, ← map_add, ← spanPoly_concat, map_mul]

/-- Settles O19: the checksum is congruent to the message times `x^8`, and of degree below the divisor's, so it is the
remainder. -/
theorem crcIsPolynomialRemainder : Obligations.CrcIsPolynomialRemainder := by
  refine ⟨crcPolynomial_monic, crcPolynomial_natDegree, fun xs => ⟨bytePoly_degree_lt _, ?_⟩⟩
  have hdvd : crcPolynomial ∣ spanPoly xs * X ^ 8 - bytePoly (crc8 0x00 xs) :=
    mk_eq_mk.mp (mk_bytePoly_crc8 xs).symm
  rw [modByMonic_eq_of_dvd_sub crcPolynomial_monic hdvd, modByMonic_eq_self_iff crcPolynomial_monic,
    crcPolynomial_degree]
  exact bytePoly_degree_lt _

end Sys2Proof.Machine
end

section
/-! PROOFS of the statements about the measurement decoders (41_measurement_decode.md): the conversion formulas (R90 to
R92) and the product they need (R93), the three commands (R95 to R97), and corrupted samples (R98). -/

namespace Sys2Proof.Machine

/-! ### The humidity formula (R90, R91) -/

theorem rhRawValue_mono {raw raw' : Nat} (h : raw ≤ raw') : rhRawValue raw ≤ rhRawValue raw' := by
  unfold rhRawValue
  omega

/-- Settles O24: `rhRawValue` grows, so its values at the boundaries say where the clamp acts. -/
theorem humidityRanges : Obligations.HumidityRanges := by
  refine ⟨fun _ => rfl, fun _ => rfl, fun _ _ => rhRawValue_mono, rfl, rfl, fun raw h => ?_, fun raw h h' => ?_,
    fun raw h _ => ?_⟩
  · have hlast : rhRawValue raw ≤ -1 := rhRawValue_mono h
    unfold rhValue
    omega
  · have hfirst : 0 ≤ rhRawValue raw := rhRawValue_mono h
    have hlast : rhRawValue raw ≤ 10000 := rhRawValue_mono h'
    unfold rhValue
    omega
  · have hfirst : 10001 ≤ rhRawValue raw := rhRawValue_mono h
    unfold rhValue
    omega

theorem rhValue_nonneg (raw : Nat) : 0 ≤ rhValue raw := le_min (by decide) (le_max_left 0 _)

theorem rhValue_le (raw : Nat) : rhValue raw ≤ 10000 := min_le_left _ _

/-! ### The temperature formula (R92) -/

theorem tValue_mono {raw raw' : Nat} (h : raw ≤ raw') : tValue raw ≤ tValue raw' := by
  unfold tValue
  omega

/-- Settles O25: `tValue` grows, so its values at the boundaries say its sign. -/
theorem temperatureRanges : Obligations.TemperatureRanges := by
  refine ⟨fun _ => rfl, fun _ _ => tValue_mono, rfl, rfl, rfl, fun raw h => ?_, fun raw h h' => ?_, fun raw h => ?_⟩
  · have hlast : tValue raw ≤ -1 := tValue_mono h
    omega
  · have hfirst : 0 ≤ tValue raw := tValue_mono h
    have hlast : tValue raw ≤ 0 := tValue_mono h'
    omega
  · have hfirst : 1 ≤ tValue raw := tValue_mono h
    omega

/-! ### The width of the product, and the order of the operations (R93) -/

theorem toNat_ofNat_mul_ofNat_shiftRight (w k raw : Nat) :
    ((BitVec.ofNat w k * BitVec.ofNat w raw) >>> 16).toNat = k * raw % 2 ^ w / 65536 := by
  rw [← BitVec.ofNat_mul, BitVec.toNat_ushiftRight, BitVec.toNat_ofNat, Nat.shiftRight_eq_div_pow]

/-- If the largest product takes exactly `m + 17` bits, a product of `w` bits has the right quotients exactly if `w` is
no less: one of fewer bits leaves a quotient of at most `m` bits, and the largest quotient has `m + 1`. -/
theorem le_width_iff_quotients_exact {k m : Nat} (hlow : 2 ^ (m + 16) ≤ k * 65535) (hhigh : k * 65535 < 2 ^ (m + 17))
    (w : Nat) : m + 17 ≤ w ↔ ∀ raw : Nat, raw ≤ 65535 → k * raw / 65536 =
      ((BitVec.ofNat w k * BitVec.ofNat w raw) >>> 16).toNat := by
  simp only [toNat_ofNat_mul_ofNat_shiftRight]
  constructor
  · intro hw raw hraw
    have hfits : k * raw < 2 ^ w :=
      calc k * raw ≤ k * 65535 := Nat.mul_le_mul_left k hraw
        _ < 2 ^ (m + 17) := hhigh
        _ ≤ 2 ^ w := Nat.pow_le_pow_right (by decide) hw
    rw [Nat.mod_eq_of_lt hfits]
  · intro hexact
    by_contra hw
    have hwrapped : k * 65535 % 2 ^ w < 2 ^ (m + 16) :=
      calc k * 65535 % 2 ^ w < 2 ^ w := Nat.mod_lt _ (Nat.two_pow_pos w)
        _ ≤ 2 ^ (m + 16) := Nat.pow_le_pow_right (by decide) (by omega)
    have hquot := hexact 65535 (Nat.le_refl _)
    rw [Nat.pow_add] at hlow hwrapped
    omega

/-- The spec's order of the operations is the division rounding down of the whole numerator. -/
theorem tValue_eq_ediv (raw : Nat) : tValue raw = (17572 * raw - 4685 * 65536 : Int) / 65536 := by
  unfold tValue
  omega

/-- Settles O27: truncation and rounding down differ by one exactly at a negative numerator that is no multiple. -/
theorem thirtyOneBitMultiplierSuffices : Obligations.ThirtyOneBitMultiplierSuffices := by
  refine ⟨fun w => ?_, fun w => ?_, fun raw hneg hndvd => ?_, rfl, rfl⟩
  · simp only [rhRawValue, sub_left_inj, Nat.cast_inj]
    exact le_width_iff_quotients_exact (m := 13) (by decide) (by decide) w
  · simp only [tValue, sub_left_inj, Nat.cast_inj]
    exact le_width_iff_quotients_exact (m := 14) (by decide) (by decide) w
  · rw [tValue_eq_ediv, Int.tdiv_eq_ediv, if_neg (not_or.mpr ⟨Int.not_le.mpr hneg, hndvd⟩)]
    rfl

/-! ### `DEC.RH` (R95) -/

theorem exec_decRh_of_check {m l c : Byte} (s : State) (h : crc8 0x00 [m, l] = c) :
    exec (.decRh m l c) s = .next (s.done (zext64Nat (rhValue (be16 m l)).toNat)) :=
  if_pos ((check_eq_true _ _).mpr h)

theorem exec_decRh_of_not_check {m l c : Byte} (s : State) (h : crc8 0x00 [m, l] ≠ c) :
    exec (.decRh m l c) s = .next (s.raise .checksumFailure) :=
  if_neg (mt (check_eq_true _ _).mp h)

theorem exec_decRh_failsWith {m l c : Byte} (s : State) (h : crc8 0x00 [m, l] ≠ c) :
    FailsWith (exec (.decRh m l c) s) s 1 := by
  rw [exec_decRh_of_not_check s h]
  exact s.raise_failsWith .checksumFailure

theorem zext64Nat_toNat_eq_sext64 {v : Int} (h : 0 ≤ v) : zext64Nat v.toNat = sext64 v := by
  rw [zext64Nat, ← BitVec.ofInt_natCast, Int.toNat_of_nonneg h, sext64]

/-- Settles O21: the clamped value is not negative, so `zext_64` and `sext_64` place it alike. -/
theorem decRhDecodesHumidity : Obligations.DecRhDecodesHumidity := by
  refine ⟨fun _ _ _ => rfl, fun m l c s => ⟨fun h => ?_, exec_decRh_failsWith s⟩⟩
  rw [exec_decRh_of_check s h, zext64Nat_toNat_eq_sext64 (rhValue_nonneg _)]
  rfl

/-- Settles O26: a valid result is that of a right checksum, and `rhValue` is clamped. -/
theorem humidityResultInRange : Obligations.HumidityResultInRange := by
  intro m l c s t h hrv
  by_cases hc : crc8 0x00 [m, l] = c
  · rw [exec_decRh_of_check s hc] at h
    cases h
    calc (zext64Nat (rhValue (be16 m l)).toNat).toNat ≤ (rhValue (be16 m l)).toNat := Nat.mod_le _ _
      _ ≤ 10000 := Int.toNat_le.mpr (rhValue_le _)
  · rw [exec_decRh_of_not_check s hc] at h
    cases h
    cases hrv

/-! ### `DEC.T` and `DEC.TLH` (R94, R96, R97) -/

theorem isSentinel_eq_true {m l : Byte} : isSentinel m l = true ↔ m = 0x00 ∧ l = 0x00 := by
  simp [isSentinel]

theorem exec_decT_of_not_check {m l c : Byte} (s : State) (h : crc8 0x00 [m, l] ≠ c) :
    exec (.decT m l c) s = .next (s.raise .checksumFailure) :=
  if_neg (mt (check_eq_true _ _).mp h)

theorem exec_decT_of_check {m l c : Byte} (s : State) (h : crc8 0x00 [m, l] = c) :
    exec (.decT m l c) s =
      if s.cfg.tSentinelOnChecked && isSentinel m l then .next (s.raise .noPreviousHumidityMeasurement)
      else .next (s.doneTemperature m l) :=
  if_pos ((check_eq_true _ _).mpr h)

theorem exec_decT_failsWith {m l c : Byte} (s : State) (h : crc8 0x00 [m, l] ≠ c) :
    FailsWith (exec (.decT m l c) s) s 1 := by
  rw [exec_decT_of_not_check s h]
  exact s.raise_failsWith .checksumFailure

/-- Settles O22: the two tests of R96 in their order. -/
theorem decTDecodesTemperature : Obligations.DecTDecodesTemperature := by
  refine ⟨fun _ _ _ => rfl, fun m l c s => ⟨exec_decT_failsWith s, fun h hcfg hm hl => ?_, fun h hnot => ?_⟩⟩
  · rw [exec_decT_of_check s h, hcfg, isSentinel_eq_true.mpr ⟨hm, hl⟩]
    exact s.raise_failsWith .noPreviousHumidityMeasurement
  · have htest : (s.cfg.tSentinelOnChecked && isSentinel m l) ≠ true := by
      rw [ne_eq, Bool.and_eq_true, isSentinel_eq_true, not_and_or, not_and_or, Bool.not_eq_true]
      exact hnot
    rw [exec_decT_of_check s h, if_neg htest]
    rfl

/-- Settles O23: the one test of R97. -/
theorem decTlhDecodesTemperature : Obligations.DecTlhDecodesTemperature := by
  refine ⟨fun _ _ => rfl, fun m l s => ⟨fun hm hl => ?_, fun h => ?_⟩⟩
  · have hraise : exec (.decTlh m l) s = .next (s.raise .noPreviousHumidityMeasurement) :=
      if_pos (isSentinel_eq_true.mpr ⟨hm, hl⟩)
    rw [hraise]
    exact s.raise_failsWith .noPreviousHumidityMeasurement
  · exact if_neg (mt isSentinel_eq_true.mp (not_and_or.mpr h))

/-! ### Corrupted samples (R98) -/

theorem crc8_pair_eq_iff_left {m m' l : Byte} : crc8 0x00 [m', l] = crc8 0x00 [m, l] ↔ m' = m := by
  simp only [crc8_cons, crc8_nil, crc8Step_comm _ l, (crc8Step_bijective _).injective.eq_iff]

theorem crc8_pair_eq_iff_right {m l l' : Byte} : crc8 0x00 [m, l'] = crc8 0x00 [m, l] ↔ l' = l := by
  simp only [crc8_cons, crc8_nil, (crc8Step_bijective _).injective.eq_iff]

/-- Settles O28: the checksum of a pair is injective in each byte, and not in both: `[0x01, 0x31]` has that of
`[0x00, 0x00]`. -/
theorem corruptedSampleIsCaught : Obligations.CorruptedSampleIsCaught := by
  have hcaught {m l c : Byte} (s : State) (h : crc8 0x00 [m, l] ≠ c) :
      FailsWith (exec (.decRh m l c) s) s 1 ∧ FailsWith (exec (.decT m l c) s) s 1 :=
    ⟨exec_decRh_failsWith s h, exec_decT_failsWith s h⟩
  refine ⟨fun m l c s h => hcaught s h.symm, fun m l m' s h => hcaught s (mt crc8_pair_eq_iff_left.mp h),
    fun m l l' s h => hcaught s (mt crc8_pair_eq_iff_right.mp h), 0x00, 0x00, 0x01, 0x31, ?_⟩
  decide +kernel

end Sys2Proof.Machine
end

section
/-! PROOFS of the statements about the serial number decoder (42_serial_number.md R112, R113). -/

namespace Sys2Proof.Machine

/-! ### `DEC.SN` (R111, R112) -/

theorem exec_decSn_of_checks {b : SerialBuffer} (s : State) (ha : crc8 0x00 (groupA b) = b.s7)
    (hb : crc8 0x00 (groupB b) = b.s13) :
    exec (.decSn b) s = .next (s.done (zext64Nat (serialNumber b))) :=
  (if_pos ((check_eq_true _ _).mpr ha)).trans (if_pos ((check_eq_true _ _).mpr hb))

theorem exec_decSn_of_not_checkA {b : SerialBuffer} (s : State) (ha : crc8 0x00 (groupA b) ≠ b.s7) :
    exec (.decSn b) s = .next (s.raise .checksumFailure) :=
  if_neg (mt (check_eq_true _ _).mp ha)

/-- A wrong group B fails alike whether group A is right or wrong. -/
theorem exec_decSn_of_not_checkB {b : SerialBuffer} (s : State) (hb : crc8 0x00 (groupB b) ≠ b.s13) :
    exec (.decSn b) s = .next (s.raise .checksumFailure) := by
  by_cases ha : crc8 0x00 (groupA b) = b.s7
  · exact (if_pos ((check_eq_true _ _).mpr ha)).trans (if_neg (mt (check_eq_true _ _).mp hb))
  · exact exec_decSn_of_not_checkA s ha

/-- Settles O29: the two tests of R112, of which one wrong is enough to fail. -/
theorem decSnDecodesSerialNumber : Obligations.DecSnDecodesSerialNumber := by
  refine ⟨fun _ => rfl, fun b s => ⟨fun ha hb => exec_decSn_of_checks s ha hb, fun h => ?_⟩⟩
  have hraise : exec (.decSn b) s = .next (s.raise .checksumFailure) :=
    h.elim (exec_decSn_of_not_checkA s) (exec_decSn_of_not_checkB s)
  rw [hraise]
  exact s.raise_failsWith .checksumFailure

/-! ### The bytes that are not checked (R113) -/

/-- The groups and the identifier are made of the other ten bytes. -/
theorem exec_decSn_unchecked_bytes (b : SerialBuffer) (x1 x3 x5 x10 : Byte) (s : State) :
    exec (.decSn { b with s1 := x1, s3 := x3, s5 := x5, s10 := x10 }) s = exec (.decSn b) s := rfl

theorem exec_next (i : Instr) (s : State) : ∃ t, exec i s = .next t := by
  obtain ⟨c, v, h, -⟩ | ⟨e, h, -, -⟩ := exec_cases i s
  · exact ⟨_, h⟩
  · exact ⟨_, h⟩

/-- Settles O31: the two buffers run to one and the same state. -/
theorem serialChecksumBytesIgnored : Obligations.SerialChecksumBytesIgnored := by
  intro b x1 x3 x5 x10 s
  obtain ⟨t, h⟩ := exec_next (.decSn b) s
  exact ⟨t, t, (exec_decSn_unchecked_bytes b x1 x3 x5 x10 s).trans h, h, .refl t, rfl, rfl⟩

end Sys2Proof.Machine
end

section
/-! PROOFS of the statements about the register codec (43_register_codec.md R120 to R129). -/

namespace Sys2Proof.Machine

/-! ### A field of a byte: a mask for its bits, and a mask for the bits it keeps -/

/-- Bits that are kept and not written over are the ones that were there. -/
theorem put_and_of_kept {k p m : Byte} (u : Byte) (hk : k &&& m = m) (hp : p &&& m = 0) :
    ((u &&& k) ||| p) &&& m = u &&& m := by
  rw [BitVec.and_or_distrib_right, BitVec.and_assoc, hk, hp]
  exact BitVec.or_zero

/-- The field read after a write is what was written. -/
theorem put_and_of_field {k p m : Byte} (u : Byte) (hk : k &&& m = 0) (hp : p &&& m = p) :
    ((u &&& k) ||| p) &&& m = p := by
  rw [BitVec.and_or_distrib_right, BitVec.and_assoc, hk, hp, show u &&& (0 : Byte) = 0 from BitVec.and_zero]
  exact BitVec.zero_or

/-- A field's own value put back gives the byte back. -/
theorem put_own_field {k m : Byte} (u : Byte) (h : k ||| m = BitVec.allOnes 8) : (u &&& k) ||| (u &&& m) = u := by
  rw [← BitVec.and_or_distrib_left, h, BitVec.and_allOnes]

/-- Writes of two fields that do not meet commute. -/
theorem put_comm {k p k' p' : Byte} (u : Byte) (hp : p &&& k' = p) (hp' : p' &&& k = p') :
    (((u &&& k) ||| p) &&& k') ||| p' = (((u &&& k') ||| p') &&& k) ||| p :=
  calc (((u &&& k) ||| p) &&& k') ||| p'
      = (u &&& k &&& k') ||| (p ||| p') := by rw [BitVec.and_or_distrib_right, hp, BitVec.or_assoc]
    _ = (u &&& k' &&& k) ||| (p' ||| p) := by
      rw [BitVec.and_assoc, BitVec.and_comm k, ← BitVec.and_assoc, BitVec.or_comm p]
    _ = (((u &&& k') ||| p') &&& k) ||| p := by rw [BitVec.and_or_distrib_right, hp', BitVec.or_assoc]

/-- Bytes that agree under a mask agree in each of its bits. -/
theorem getLsbD_eq_of_and_eq {a b m : Byte} {i : Nat} (h : a &&& m = b &&& m) (hi : m.getLsbD i = true) :
    a.getLsbD i = b.getLsbD i := by
  have hbit := congrArg (BitVec.getLsbD · i) h
  simpa [hi] using hbit

/-! ### A byte in `RES` (R6, R32) -/

@[simp] theorem lowByte_zext64 (b : Byte) : lowByte (zext64 b) = b := by
  simp [lowByte, zext64]

theorem zext64_getLsbD (b : Byte) {k : Nat} (hk : k < 64) : (zext64 b).getLsbD k = b.getLsbD k := by
  simp [zext64, hk]

/-! ### The resolution field (R24, R120, R121) -/

theorem patternOf_and_mask (q : Resolution) : patternOf q &&& urResMask = patternOf q := by cases q <;> decide

theorem patternOf_and_keep (q : Resolution) : patternOf q &&& urResKeep = 0 := by cases q <;> decide

/-- The masked byte is one of the four patterns: bit 7 and bit 0 are each set or clear. -/
theorem and_urResMask_cases (u : Byte) :
    u &&& urResMask = 0x00 ∨ u &&& urResMask = 0x01 ∨ u &&& urResMask = 0x80 ∨ u &&& urResMask = 0x81 := by
  have hbits : u &&& urResMask =
      (if u.getLsbD 0 then BitVec.twoPow 8 0 else 0#8) ||| (if u.getLsbD 7 then BitVec.twoPow 8 7 else 0#8) := by
    rw [← BitVec.and_twoPow, ← BitVec.and_twoPow, ← BitVec.and_or_distrib_left]
    rfl
  rw [hbits]
  cases u.getLsbD 0 <;> cases u.getLsbD 7 <;> decide

/-- The document's map of a register byte and the masked byte are the same (R120). -/
theorem patternOf_resolution (u : Byte) : patternOf (resolution u) = u &&& urResMask := by
  unfold resolution
  obtain h | h | h | h := and_urResMask_cases u <;> rw [h] <;> rfl

theorem setResolution_and_mask (u : Byte) (q : Resolution) : setResolution u q &&& urResMask = patternOf q :=
  put_and_of_field u (by decide) (patternOf_and_mask q)

theorem setResolution_and_keep (u : Byte) (q : Resolution) : setResolution u q &&& urResKeep = u &&& urResKeep :=
  put_and_of_kept u (by decide) (patternOf_and_keep q)

theorem resolutionOfPattern_patternOf (q : Resolution) : resolutionOfPattern (patternOf q) = some q := by
  cases q <;> decide

/-- R55 (a): the legal `r` operands are the four patterns. -/
theorem exists_patternOf_eq_iff (r : Byte) :
    (∃ q, patternOf q = r) ↔ (r = 0x00 ∨ r = 0x01 ∨ r = 0x80 ∨ r = 0x81) := by
  constructor
  · rintro ⟨q, rfl⟩
    cases q <;> decide
  · rintro (rfl | rfl | rfl | rfl)
    · exact ⟨.rh12Temp14, rfl⟩
    · exact ⟨.rh8Temp12, rfl⟩
    · exact ⟨.rh10Temp10, rfl⟩
    · exact ⟨.rh11Temp11, rfl⟩

theorem exec_urGres (u : Byte) (s : State) : exec (.urGres u) s = .next (s.done (zext64 (u &&& urResMask))) := rfl

theorem exec_urSres_of_pattern (u : Byte) (q : Resolution) (s : State) :
    exec (.urSres u (patternOf q)) s = .next (s.done (zext64 (setResolution u q))) := by
  simp only [exec, execUrSres, resolutionOfPattern_patternOf]

theorem exec_urSres_of_not_pattern {r : Byte} (u : Byte) (s : State) (h : ∀ q, patternOf q ≠ r) :
    exec (.urSres u r) s = .next (s.raise .illegalOperand) := by
  have hnone : resolutionOfPattern r = none := List.find?_eq_none.mpr fun q _ => by simpa using h q
  simp only [exec, execUrSres, hnone]

theorem exec_urSres_of_rv {u r : Byte} {s t : State} (h : exec (.urSres u r) s = .next t) (hrv : t.rv = true) :
    ∃ q, t = s.done (zext64 (setResolution u q)) := by
  by_cases hr : ∃ q, patternOf q = r
  · obtain ⟨q, rfl⟩ := hr
    rw [exec_urSres_of_pattern] at h
    cases h
    exact ⟨q, rfl⟩
  · rw [exec_urSres_of_not_pattern u s (not_exists.mp hr)] at h
    cases h
    cases hrv

/-- Settles O32: the masked byte is the pattern of `patternOf_resolution`. -/
theorem urGresReadsResolution : Obligations.UrGresReadsResolution :=
  ⟨fun _ => rfl, fun u s => ⟨exec_urGres u s, patternOf_resolution u⟩⟩

/-- Settles O33: `r` is a pattern or it is none. -/
theorem urSresSetsResolution : Obligations.UrSresSetsResolution := by
  refine ⟨fun _ _ => rfl, fun u r s => ⟨fun hr => ?_, fun hr => ?_⟩⟩
  · obtain ⟨q, rfl⟩ := (exists_patternOf_eq_iff r).mpr hr
    exact exec_urSres_of_pattern u q s
  · rw [exec_urSres_of_not_pattern u s (not_exists.mp (mt (exists_patternOf_eq_iff r).mp hr))]
    exact s.raise_failsWith .illegalOperand

/-! ### The heater-enable bit (R122, R123) -/

/-- What `setHeaterEnabled` puts into bit 2 (`setHeaterEnabled_eq`). -/
def heaterBit (b : Bool) : Byte := if b then urHtreMask else 0x00

theorem setHeaterEnabled_eq (u : Byte) (b : Bool) : setHeaterEnabled u b = (u &&& urHtreKeep) ||| heaterBit b := rfl

theorem heaterBit_and_mask (b : Bool) : heaterBit b &&& urHtreMask = heaterBit b := by cases b <;> decide

theorem heaterBit_and_keep (b : Bool) : heaterBit b &&& urHtreKeep = 0 := by cases b <;> decide

/-- The masked byte is the bit that the flag read stands for. -/
theorem heaterBit_heaterEnabled (u : Byte) : heaterBit (heaterEnabled u) = u &&& urHtreMask := by
  have hbit : u &&& urHtreMask = if u.getLsbD 2 then BitVec.twoPow 8 2 else 0#8 := BitVec.and_twoPow u 2
  rw [heaterEnabled, hbit]
  cases u.getLsbD 2 <;> decide

theorem setHeaterEnabled_and_keep (u : Byte) (b : Bool) : setHeaterEnabled u b &&& urHtreKeep = u &&& urHtreKeep :=
  put_and_of_kept u (by decide) (heaterBit_and_keep b)

theorem heaterEnabled_setHeaterEnabled (u : Byte) (b : Bool) : heaterEnabled (setHeaterEnabled u b) = b := by
  have hfield : setHeaterEnabled u b &&& urHtreMask = heaterBit b :=
    put_and_of_field u (by decide) (heaterBit_and_mask b)
  rw [heaterEnabled, hfield]
  cases b <;> decide

/-- The keep mask holds every bit of the byte but bit 2. -/
theorem setHeaterEnabled_getLsbD (u : Byte) (b : Bool) {k : Nat} (hk : k ≠ 2) :
    (setHeaterEnabled u b).getLsbD k = u.getLsbD k := by
  obtain hlt | hge := Nat.lt_or_ge k 8
  · have hkeep : ∀ k < 8, k ≠ 2 → urHtreKeep.getLsbD k = true := by decide
    exact getLsbD_eq_of_and_eq (setHeaterEnabled_and_keep u b) (hkeep k hlt hk)
  · rw [BitVec.getLsbD_of_ge _ k hge, BitVec.getLsbD_of_ge _ k hge]

theorem exec_urGhtr (u : Byte) (s : State) : exec (.urGhtr u) s = .next (s.done (boolResult (heaterEnabled u))) := rfl

theorem exec_urShtr_one (u : Byte) (s : State) :
    exec (.urShtr u 0x01) s = .next (s.done (zext64 (setHeaterEnabled u true))) := rfl

theorem exec_urShtr_zero (u : Byte) (s : State) :
    exec (.urShtr u 0x00) s = .next (s.done (zext64 (setHeaterEnabled u false))) := rfl

/-- R55 (b). -/
theorem exec_urShtr_of_not_flag {on : Byte} (u : Byte) (s : State) (h0 : on ≠ 0x00) (h1 : on ≠ 0x01) :
    exec (.urShtr u on) s = .next (s.raise .illegalOperand) := by
  have hnone : boolOfOperand on = none := (if_neg h0).trans (if_neg h1)
  simp only [exec, execUrShtr, hnone]

theorem exec_urShtr_of_rv {u on : Byte} {s t : State} (h : exec (.urShtr u on) s = .next t) (hrv : t.rv = true) :
    ∃ b, t = s.done (zext64 (setHeaterEnabled u b)) := by
  by_cases h0 : on = 0x00
  · rw [h0, exec_urShtr_zero] at h
    cases h
    exact ⟨false, rfl⟩
  by_cases h1 : on = 0x01
  · rw [h1, exec_urShtr_one] at h
    cases h
    exact ⟨true, rfl⟩
  rw [exec_urShtr_of_not_flag u s h0 h1] at h
  cases h
  cases hrv

/-- Settles O34: bit 2 is set, or it is clear. -/
theorem urGhtrReadsHeaterEnable : Obligations.UrGhtrReadsHeaterEnable := by
  refine ⟨fun _ => rfl, fun u s => ⟨fun hset => ?_, fun hclear => ?_⟩⟩
  · have hflag : heaterEnabled u = true := bne_iff_ne.mpr hset
    rw [exec_urGhtr, hflag]
    rfl
  · have hflag : heaterEnabled u = false := bne_eq_false_iff_eq.mpr hclear
    rw [exec_urGhtr, hflag]
    rfl

/-- Settles O35: `on` is one, zero, or no flag. -/
theorem urShtrSetsHeaterEnable : Obligations.UrShtrSetsHeaterEnable := by
  refine ⟨fun _ _ => rfl, fun u on s => ⟨?_, ?_, fun h0 h1 => ?_⟩⟩
  · rintro rfl
    exact exec_urShtr_one u s
  · rintro rfl
    have hzero : setHeaterEnabled u false = u &&& 0xfb := BitVec.or_zero
    rw [exec_urShtr_zero, hzero]
    rfl
  · rw [exec_urShtr_of_not_flag u s h0 h1]
    exact s.raise_failsWith .illegalOperand

/-! ### The heater level (R124, R125) -/

/-- A legal level is its own low nibble. -/
theorem level_and_mask {v : Byte} (hv : v ≤ hrLvlMax) : v &&& hrLvlMask = v := by
  have hlt : v.toNat < 2 ^ 4 := Nat.lt_succ_of_le (BitVec.le_def.mp hv)
  apply BitVec.eq_of_toNat_eq
  rw [BitVec.toNat_and]
  exact Nat.and_two_pow_sub_one_of_lt_two_pow hlt

theorem level_and_keep {v : Byte} (hv : v ≤ hrLvlMax) : v &&& hrLvlKeep = 0 := by
  rw [← level_and_mask hv, BitVec.and_assoc]
  exact BitVec.and_zero

theorem heaterLevel_setHeaterLevel (h : Byte) {v : Byte} (hv : v ≤ hrLvlMax) : heaterLevel (setHeaterLevel h v) = v :=
  put_and_of_field h (by decide) (level_and_mask hv)

theorem setHeaterLevel_and_keep (h : Byte) {v : Byte} (hv : v ≤ hrLvlMax) :
    setHeaterLevel h v &&& hrLvlKeep = h &&& hrLvlKeep :=
  put_and_of_kept h (by decide) (level_and_keep hv)

theorem exec_hrGlvl (h : Byte) (s : State) : exec (.hrGlvl h) s = .next (s.done (zext64 (heaterLevel h))) := rfl

theorem exec_hrSlvl_of_le {v : Byte} (h : Byte) (s : State) (hv : v ≤ hrLvlMax) :
    exec (.hrSlvl h v) s = .next (s.done (zext64 (setHeaterLevel h v))) := if_neg (BitVec.not_lt.mpr hv)

theorem exec_hrSlvl_of_lt {v : Byte} (h : Byte) (s : State) (hv : hrLvlMax < v) :
    exec (.hrSlvl h v) s = .next (s.raise .invalidHeaterLevel) := if_pos hv

theorem exec_hrSlvl_of_rv {h v : Byte} {s t : State} (he : exec (.hrSlvl h v) s = .next t) (hrv : t.rv = true) :
    v ≤ hrLvlMax ∧ t = s.done (zext64 (setHeaterLevel h v)) := by
  by_cases hv : hrLvlMax < v
  · rw [exec_hrSlvl_of_lt h s hv] at he
    cases he
    cases hrv
  · have hle := BitVec.not_lt.mp hv
    rw [exec_hrSlvl_of_le h s hle] at he
    cases he
    exact ⟨hle, rfl⟩

/-- Settles O36. -/
theorem hrGlvlReadsLevel : Obligations.HrGlvlReadsLevel := ⟨fun _ => rfl, exec_hrGlvl⟩

/-- Settles O37: the test of `v` alone decides. -/
theorem hrSlvlSetsLevel : Obligations.HrSlvlSetsLevel := by
  refine ⟨fun _ _ => rfl, fun h v s => ⟨exec_hrSlvl_of_le h s, fun hv => ?_⟩⟩
  rw [exec_hrSlvl_of_lt h s hv]
  exact s.raise_failsWith .invalidHeaterLevel

/-! ### The codec's laws (R127 to R129) -/

/-- Settles O38: the setter leaves its field in `RES[7:0]`, where the getter reads it, and keeps the other bits. -/
theorem settersRoundTrip : Obligations.SettersRoundTrip := by
  refine ⟨fun u q s => ⟨_, exec_urSres_of_pattern u q s, ?_⟩,
    fun h v s hv => ⟨_, exec_hrSlvl_of_le h s hv, ?_⟩⟩
  · rw [State.done_res, lowByte_zext64, exec_urGres, setResolution_and_mask]
    exact ⟨rfl, setResolution_and_keep u q⟩
  · rw [State.done_res, lowByte_zext64, exec_hrGlvl, heaterLevel_setHeaterLevel h hv]
    exact ⟨rfl, setHeaterLevel_and_keep h hv⟩

theorem setResolution_resolution (u : Byte) : setResolution u (resolution u) = u := by
  rw [setResolution, patternOf_resolution]
  exact put_own_field u (by decide)

theorem setHeaterEnabled_heaterEnabled (u : Byte) : setHeaterEnabled u (heaterEnabled u) = u := by
  rw [setHeaterEnabled_eq, heaterBit_heaterEnabled]
  exact put_own_field u (by decide)

theorem setHeaterLevel_heaterLevel (h : Byte) : setHeaterLevel h (heaterLevel h) = h := put_own_field h (by decide)

/-- The two fields of the UserRegister do not meet. -/
theorem setHeaterEnabled_setResolution_comm (u : Byte) (q : Resolution) (b : Bool) :
    setHeaterEnabled (setResolution u q) b = setResolution (setHeaterEnabled u b) q := by
  have hq : patternOf q &&& urHtreKeep = patternOf q := by cases q <;> decide
  have hb : heaterBit b &&& urResKeep = heaterBit b := by cases b <;> decide
  exact put_comm u hq hb

/-- Settles O39. -/
theorem codecIdentities : Obligations.CodecIdentities :=
  ⟨fun u b => ⟨heaterEnabled_setHeaterEnabled u b, fun _ hk => setHeaterEnabled_getLsbD u b hk⟩,
    setResolution_resolution, setHeaterEnabled_heaterEnabled, setHeaterLevel_heaterLevel,
    setHeaterEnabled_setResolution_comm⟩

/-- A byte in `RES` that agrees with an operand under a mask agrees with it in each of the mask's bits. -/
theorem zext64_getLsbD_of_and_eq {a u m : Byte} {k : Nat} (h : a &&& m = u &&& m) (hk : m.getLsbD k = true) :
    (zext64 a).getLsbD k = u.getLsbD k := by
  have hlt : k < 8 := BitVec.lt_of_getLsbD hk
  rw [zext64_getLsbD a (by omega)]
  exact getLsbD_eq_of_and_eq h hk

/-- A byte with other bits mixed in reads alike under a mask that holds none of them. -/
theorem mixed_and {a b m : Byte} (u x : Byte) (ha : a &&& m = m) (hb : b &&& m = 0) :
    ((u &&& a) ||| (x &&& b)) &&& m = u &&& m := by
  refine put_and_of_kept u ha ?_
  rw [BitVec.and_assoc, hb]
  exact BitVec.and_zero

/-- Settles O40: a setter that ends with `RV = 1` keeps the bits of its keep mask, which holds the reserved ones; a
getter reads under its own mask, which holds none. -/
theorem reservedBitsPassThrough : Obligations.ReservedBitsPassThrough := by
  refine ⟨fun u r s t h hrv k hk => ?_, fun u on s t h hrv k hk => ?_, fun h v s t he hrv k hk => ?_,
    fun u x s => ⟨?_, ?_⟩, fun h x s => ?_⟩
  · obtain ⟨q, rfl⟩ := exec_urSres_of_rv h hrv
    have hkeep : ∀ k ∈ [1, 3, 4, 5, 6], urResKeep.getLsbD k = true := by decide
    exact zext64_getLsbD_of_and_eq (setResolution_and_keep u q) (hkeep k hk)
  · obtain ⟨b, rfl⟩ := exec_urShtr_of_rv h hrv
    have hkeep : ∀ k ∈ [1, 3, 4, 5, 6], urHtreKeep.getLsbD k = true := by decide
    exact zext64_getLsbD_of_and_eq (setHeaterEnabled_and_keep u b) (hkeep k hk)
  · obtain ⟨hv, rfl⟩ := exec_hrSlvl_of_rv he hrv
    have hkeep : ∀ k ∈ [4, 5, 6, 7], hrLvlKeep.getLsbD k = true := by decide
    exact zext64_getLsbD_of_and_eq (setHeaterLevel_and_keep h hv) (hkeep k hk)
  · rw [exec_urGres, exec_urGres, mixed_and u x (by decide) (by decide)]
  · rw [exec_urGhtr, exec_urGhtr, heaterEnabled, heaterEnabled, mixed_and u x (by decide) (by decide)]
  · rw [exec_hrGlvl, exec_hrGlvl, heaterLevel, heaterLevel, mixed_and h x (by decide) (by decide)]

end Sys2Proof.Machine
end

section
/-! PROOFS of the statements about the host's Sensor Session (44_host_session.md R143 to R154, R163), and that every
step answers a next state (R157, R191). -/

namespace Sys2Proof.Machine

open Host

/-! ### Every step answers (R157, R191) -/

/-- Settles O10: the block waits, or makes a move. -/
theorem everyStepAnswersNext : Obligations.EveryStepAnswersNext := by
  intro s
  cases hp : s.port with
  | nil => exact ⟨s, step_of_port_nil hp⟩
  | cons m rest =>
    rw [step_of_port_cons hp]
    exact hostMove_next m (s.withPort rest)

/-- The step on a well-formed command presented ahead of the waiting moves is the command's meaning. -/
theorem step_present {i : Instr} {s : State} (hw : i.wellFormed s.cfg = true) :
    step (s.present (encode i)) = exec i s := by
  have hframe : step (s.present (encode i)) = execFrame (encode i) s := step_of_port_command (s.withPort_port _)
  rw [hframe, execFrame_of_decode_ok (decodeInvertsEncode s.cfg i hw)]

section
variable {ε α β : Type}

/-! ### One action of an accessor, exactly (R142, R154) -/

theorem Accessor.andThen_of_ok {x : Accessor ε α} {w w' : Session} {a : α} (k : α → Accessor ε β)
    (h : x w = (.ok a, w')) : x.andThen k w = k a w' := by
  simp only [Accessor.andThen, h]

theorem Accessor.andThen_of_error {x : Accessor ε α} {w w' : Session} {e : SessionError ε} (k : α → Accessor ε β)
    (h : x w = (.error e, w')) : x.andThen k w = (.error e, w') := by
  simp only [Accessor.andThen, h]

theorem busCall_of_ok {tr : Transport ε} {c : BusCall} {w : Session} {buf : Nat → Byte} (h : tr w.calls c = .ok buf) :
    busCall tr c w = (.ok buf, { w with calls := w.calls ++ [c] }) := by
  simp only [busCall, h]

theorem busCall_of_error {tr : Transport ε} {c : BusCall} {w : Session} {e : ε} (h : tr w.calls c = .error e) :
    busCall tr c w = (.error (.transportError e), { w with calls := w.calls ++ [c] }) := by
  simp only [busCall, h]

theorem blockCommand_of_exec {i : Instr} {w : Session} {t : State} (hw : i.wellFormed w.block.cfg = true)
    (h : exec i w.block = .next t) :
    blockCommand (ε := ε) i w = (if t.rv then .ok t.res else .error (.reported t.err), { w with block := t }) := by
  simp only [blockCommand, step_present hw, h]

/-! ### What an accessor yields, whatever state the block is in -/

/-- Begun after the bus calls `before`, the accessor ends with `r` after the bus calls `after`. -/
def Accessor.Yields (x : Accessor ε α) (before : List BusCall) (r : Except (SessionError ε) α)
    (after : List BusCall) : Prop :=
  ∀ w : Session, w.calls = before → ∃ w', x w = (r, w') ∧ w'.calls = after

theorem Accessor.give_yields (a : α) (cs : List BusCall) : (Accessor.give (ε := ε) a).Yields cs (.ok a) cs :=
  fun w hw => ⟨w, rfl, hw⟩

theorem Accessor.Yields.andThen {x : Accessor ε α} {k : α → Accessor ε β} {a : α} {r : Except (SessionError ε) β}
    {before between after : List BusCall} (hx : x.Yields before (.ok a) between) (hk : (k a).Yields between r after) :
    (x.andThen k).Yields before r after := by
  intro w hw
  obtain ⟨w', hxw, hw'⟩ := hx w hw
  rw [Accessor.andThen_of_ok k hxw]
  exact hk w' hw'

/-- The first failure ends the whole accessor (R154). -/
theorem Accessor.Yields.andThen_error {x : Accessor ε α} {e : SessionError ε} {before after : List BusCall}
    (hx : x.Yields before (.error e) after) (k : α → Accessor ε β) : (x.andThen k).Yields before (.error e) after := by
  intro w hw
  obtain ⟨w', hxw, hw'⟩ := hx w hw
  exact ⟨w', Accessor.andThen_of_error k hxw, hw'⟩

theorem busCall_yields {tr : Transport ε} {c : BusCall} {cs : List BusCall} {buf : Nat → Byte} (h : tr cs c = .ok buf) :
    (busCall tr c).Yields cs (.ok buf) (cs ++ [c]) := by
  rintro w rfl
  exact ⟨_, busCall_of_ok h, rfl⟩

theorem busCall_yields_error {tr : Transport ε} {c : BusCall} {cs : List BusCall} {e : ε} (h : tr cs c = .error e) :
    (busCall tr c).Yields cs (.error (.transportError e)) (cs ++ [c]) := by
  rintro w rfl
  exact ⟨_, busCall_of_error h, rfl⟩

theorem readUserRegister_yields {tr : Transport ε} {cs : List BusCall} {buf : Nat → Byte}
    (h : tr cs (.writeThenRead 0x40 [0xE7] 1) = .ok buf) :
    (readUserRegister tr).Yields cs (.ok (buf 0)) (cs ++ [.writeThenRead 0x40 [0xE7] 1]) :=
  (busCall_yields h).andThen (Accessor.give_yields _ _)

theorem readHeaterRegister_yields {tr : Transport ε} {cs : List BusCall} {buf : Nat → Byte}
    (h : tr cs (.writeThenRead 0x40 [0x11] 1) = .ok buf) :
    (readHeaterRegister tr).Yields cs (.ok (buf 0)) (cs ++ [.writeThenRead 0x40 [0x11] 1]) :=
  (busCall_yields h).andThen (Accessor.give_yields _ _)

/-- The byte a setter left in `RES` is the byte written to the device (R32). -/
theorem busWrite_lowByte_zext64 (tr : Transport ε) (cmd b : Byte) :
    busWrite tr cmd (lowByte (zext64 b)) = busCall tr (.write 0x40 [cmd, b]) := by
  rw [lowByte_zext64]
  rfl

/-- A command that ends with `done` in every state gives its result, and makes no bus call (R143). -/
theorem blockCommand_yields {i : Instr} {v : Dword} (cs : List BusCall) (hw : ∀ cfg, i.wellFormed cfg = true)
    (h : ∀ s, exec i s = .next (s.done v)) : (blockCommand (ε := ε) i).Yields cs (.ok v) cs :=
  fun _ hcs => ⟨_, blockCommand_of_exec (hw _) (h _), hcs⟩

/-- A command that ends with `raise` in every state reports the error's code, and makes no bus call (R143). -/
theorem blockCommand_yields_error {i : Instr} {e : BlockError} (cs : List BusCall) (hw : ∀ cfg, i.wellFormed cfg = true)
    (h : ∀ s, exec i s = .next (s.raise e)) : (blockCommand (ε := ε) i).Yields cs (.error (.reported e.code)) cs :=
  fun _ hcs => ⟨_, blockCommand_of_exec (hw _) (h _), hcs⟩

/-! ### The setters' frames -/

theorem blockCommand_urSres_yields (u : Byte) (q : Resolution) (cs : List BusCall) :
    (blockCommand (ε := ε) (.urSres u (patternOf q))).Yields cs (.ok (zext64 (setResolution u q))) cs :=
  blockCommand_yields cs (fun _ => rfl) (exec_urSres_of_pattern u q)

theorem blockCommand_urShtr_one_yields (u : Byte) (cs : List BusCall) :
    (blockCommand (ε := ε) (.urShtr u 0x01)).Yields cs (.ok (zext64 (setHeaterEnabled u true))) cs :=
  blockCommand_yields cs (fun _ => rfl) (exec_urShtr_one u)

theorem blockCommand_hrSlvl_yields (h : Byte) {v : Byte} (hv : v ≤ hrLvlMax) (cs : List BusCall) :
    (blockCommand (ε := ε) (.hrSlvl h v)).Yields cs (.ok (zext64 (setHeaterLevel h v))) cs :=
  blockCommand_yields cs (fun _ => rfl) fun s => exec_hrSlvl_of_le h s hv

theorem blockCommand_hrSlvl_yields_error (h : Byte) {v : Byte} (hv : hrLvlMax < v) (cs : List BusCall) :
    (blockCommand (ε := ε) (.hrSlvl h v)).Yields cs (.error (.reported 3)) cs :=
  blockCommand_yields_error cs (fun _ => rfl) fun s => exec_hrSlvl_of_lt h s hv

/-! ### A read that fails (R154) -/

theorem busRead_andThen_of_error {tr : Transport ε} {cmd : List Byte} {len : Nat} {w : Session} {e : ε}
    (k : (Nat → Byte) → Accessor ε α) (h : tr w.calls (.writeThenRead 0x40 cmd len) = .error e) :
    (busRead tr cmd len).andThen k w =
      (.error (.transportError e), { w with calls := w.calls ++ [.writeThenRead 0x40 cmd len] }) :=
  Accessor.andThen_of_error k (busCall_of_error h)

end

/-! ### The accessors -/

/-- Settles O57: the read comes first, alone or inside a register's read. -/
theorem failedReadAbortsAccessor : Obligations.FailedReadAbortsAccessor := by
  intro ε tr e w cmd len acc hacc hfail
  obtain h | h | h | h | h | h := hacc <;> cases h
  case inl | inr.inl | inr.inr.inl => exact busRead_andThen_of_error _ hfail
  all_goals exact Accessor.andThen_of_error _ (busRead_andThen_of_error _ hfail)

/-- Settles O55: the block's level test is the first action. -/
theorem illegalLevelMakesNoBusCall : Obligations.IllegalLevelMakesNoBusCall := by
  intro ε tr level w hlevel
  exact (blockCommand_hrSlvl_yields_error 0x00 hlevel w.calls).andThen_error _ w rfl

/-- Settles O59: a read, a setter, a write. -/
theorem setResolutionReadModifyWrite : Obligations.SetResolutionReadModifyWrite := by
  intro ε tr q b1 b2 w r1 w1 hread hwrite
  have hyields : (setMeasurementResolution tr q).Yields w.calls (.ok ()) (w.calls ++ [r1] ++ [w1]) := by
    refine (readUserRegister_yields hread).andThen ((blockCommand_urSres_yields _ q _).andThen ?_)
    rw [busWrite_lowByte_zext64]
    exact (busCall_yields hwrite).andThen (Accessor.give_yields () _)
  rw [List.append_cons]
  exact hyields w rfl

/-- Settles O56: the level test, two reads and two setters come before the writes, of which the second fails. -/
theorem heaterSetPartialFailure : Obligations.HeaterSetPartialFailure := by
  intro ε tr level b1 b2 b3 e w hlevel r1 r2 w1 w2 hread1 hread2 hwrite1 hwrite2
  have hwrite1' : tr (w.calls ++ [r1] ++ [r2]) w1 = .ok b3 := by rwa [← List.append_cons]
  have hwrite2' : tr (w.calls ++ [r1] ++ [r2] ++ [w1]) w2 = .error e := by simpa using hwrite2
  have hyields : (setHeater tr (some level)).Yields w.calls (.error (.transportError e))
      (w.calls ++ [r1] ++ [r2] ++ [w1] ++ [w2]) := by
    refine (blockCommand_hrSlvl_yields 0x00 hlevel _).andThen ?_
    refine (readUserRegister_yields hread1).andThen ((readHeaterRegister_yields hread2).andThen ?_)
    refine (blockCommand_urShtr_one_yields (b1 0) _).andThen ((blockCommand_hrSlvl_yields (b2 0) hlevel _).andThen ?_)
    rw [busWrite_lowByte_zext64, busWrite_lowByte_zext64]
    exact (busCall_yields hwrite1').andThen ((busCall_yields_error hwrite2').andThen_error _)
  obtain ⟨w', hw', hcalls⟩ := hyields w rfl
  exact ⟨w', hw', by simpa using hcalls⟩

theorem serialNumberAccessor_yields {ε : Type} {tr : Transport ε} {a b : Nat → Byte} {r : Except (SessionError ε) Dword}
    {cs : List BusCall} (hreadA : tr cs (.writeThenRead 0x40 [0xFA, 0x0F] 8) = .ok a)
    (hreadB : tr (cs ++ [.writeThenRead 0x40 [0xFA, 0x0F] 8]) (.writeThenRead 0x40 [0xFC, 0xC9] 6) = .ok b)
    (hdecode : ∀ cs, (blockCommand (.decSn (assembleBuffer a b))).Yields cs r cs) :
    (serialNumberAccessor tr).Yields cs r
      (cs ++ [.writeThenRead 0x40 [0xFA, 0x0F] 8, .writeThenRead 0x40 [0xFC, 0xC9] 6]) := by
  rw [List.append_cons]
  exact (busCall_yields hreadA).andThen ((busCall_yields hreadB).andThen (hdecode _))

/-- `DEC.SN` as an accessor's last action: the identifier exactly if both groups are right, else the block's error 1. -/
theorem blockCommand_decSn_yields (ε : Type) (buf : SerialBuffer) : ∃ r : Except (SessionError ε) Dword,
    (∀ cs, (blockCommand (.decSn buf)).Yields cs r cs) ∧
    (∀ v, r = .ok v ↔ crc8 0x00 (groupA buf) = buf.s7 ∧ crc8 0x00 (groupB buf) = buf.s13 ∧
      v = zext64Nat (serialNumber buf)) ∧
    ∀ err, r = .error err → err = .reported 1 := by
  by_cases hchecks : crc8 0x00 (groupA buf) = buf.s7 ∧ crc8 0x00 (groupB buf) = buf.s13
  · obtain ⟨ha, hb⟩ := hchecks
    refine ⟨.ok (zext64Nat (serialNumber buf)),
      fun cs => blockCommand_yields cs (fun _ => rfl) fun s => exec_decSn_of_checks s ha hb, fun v => ?_, nofun⟩
    exact ⟨fun h => ⟨ha, hb, (Except.ok.inj h).symm⟩, fun ⟨_, _, h⟩ => congrArg Except.ok h.symm⟩
  · have hraise : ∀ s, exec (.decSn buf) s = .next (s.raise .checksumFailure) := fun s =>
      (not_and_or.mp hchecks).elim (exec_decSn_of_not_checkA s) (exec_decSn_of_not_checkB s)
    refine ⟨.error (.reported 1), fun cs => blockCommand_yields_error cs (fun _ => rfl) hraise, fun v => ?_, ?_⟩
    · exact iff_of_false nofun fun ⟨ha, hb, _⟩ => hchecks ⟨ha, hb⟩
    · rintro _ ⟨⟩
      rfl

/-- Settles O58: after the two reads the result is that of `DEC.SN` on the buffer they fill. -/
theorem serialNumberTwoTransactions : Obligations.SerialNumberTwoTransactions := by
  intro ε tr a b w ra rb hreadA hreadB
  obtain ⟨r, hdecode, hok, herror⟩ := blockCommand_decSn_yields ε (assembleBuffer a b)
  obtain ⟨w', hw', hcalls⟩ := serialNumberAccessor_yields hreadA hreadB hdecode w rfl
  refine ⟨r, w', hw', hcalls, fun v => ?_, herror⟩
  rw [hok, zext64Nat_serialNumber]
  rfl

end Sys2Proof.Machine
end

section
/-! PROOFS of the statements about the errors (60_exceptions.md R160 to R163). Each command's own statement says when it
raises and when it does not; an outcome that is the failure with one code is no normal end and no failure with
another. -/

namespace Sys2Proof.Machine

open Host

section
variable {o : Outcome State Fault Refusal} {s : State} {code : BitVec 3}

/-- The code of a failed command is what it leaves in `ERR`. -/
theorem FailsWith.code_unique {code' : BitVec 3} (h : FailsWith o s code) (h' : FailsWith o s code') :
    code = code' := by
  obtain ⟨v, n, rfl⟩ := h
  obtain ⟨v', n', heq⟩ := h'
  injection heq with heq
  exact congrArg State.err heq

/-- A failed command leaves `RV = 0`. -/
theorem FailsWith.ne_next_of_rv {t : State} (h : FailsWith o s code) (hrv : t.rv = true) : o ≠ .next t := by
  obtain ⟨v, n, rfl⟩ := h
  rintro ⟨⟩
  exact nomatch hrv

/-- A command that ends normally where `p` holds, and with one error where it does not: if it failed, it was with that
error, and `p` did not hold. -/
theorem FailsWith.not_and_code_eq {p : Prop} {t : State} {code' : BitVec 3} (h : FailsWith o s code)
    (hdone : p → o = .next t) (hrv : t.rv = true) (hfail : ¬p → FailsWith o s code') : ¬p ∧ code = code' :=
  have hp : ¬p := fun hp => h.ne_next_of_rv hrv (hdone hp)
  ⟨hp, h.code_unique (hfail hp)⟩

/-! ### The commands that can fail, one by one -/

theorem code_of_crcChk_fails {c : Byte} (h : FailsWith (exec (.crcChk c) s) s code) : code = 1 :=
  have ⟨hdone, hfail⟩ := crcChkCompares.2 c s
  (h.not_and_code_eq hdone rfl hfail).2

theorem code_of_decRh_fails {m l c : Byte} (h : FailsWith (exec (.decRh m l c) s) s code) : code = 1 :=
  have ⟨hdone, hfail⟩ := decRhDecodesHumidity.2 m l c s
  (h.not_and_code_eq hdone rfl hfail).2

theorem code_of_decSn_fails {b : SerialBuffer} (h : FailsWith (exec (.decSn b) s) s code) : code = 1 :=
  have ⟨hdone, hfail⟩ := decSnDecodesSerialNumber.2 b s
  (h.not_and_code_eq (and_imp.mpr hdone) rfl fun hnot => hfail (not_and_or.mp hnot)).2

/-- Once the checksum is right, only the sentinel is left to fail on, and the sentinel's own checksum is `0x00`. -/
theorem code_of_decT_fails {m l c : Byte} (h : FailsWith (exec (.decT m l c) s) s code) :
    code = 1 ∨ code = 2 ∧ s.cfg.tSentinelOnChecked = true ∧ m = 0x00 ∧ l = 0x00 ∧ c = 0x00 := by
  obtain ⟨hwrong, hsentinel, hdone⟩ := decTDecodesTemperature.2 m l c s
  by_cases hc : crc8 0x00 [m, l] = c
  · have hnot := mt (hdone hc) (h.ne_next_of_rv rfl)
    rw [← Bool.not_eq_true, ← not_and_or, ← not_and_or, not_not] at hnot
    obtain ⟨hcfg, rfl, rfl⟩ := hnot
    exact .inr ⟨h.code_unique (hsentinel hc hcfg rfl rfl), hcfg, rfl, rfl,
      hc.symm.trans (crc8_replicate_zero 2)⟩
  · exact .inl (h.code_unique (hwrong hc))

theorem code_of_decTlh_fails {m l : Byte} (h : FailsWith (exec (.decTlh m l) s) s code) :
    code = 2 ∧ m = 0x00 ∧ l = 0x00 := by
  obtain ⟨hsentinel, hdone⟩ := decTlhDecodesTemperature.2 m l s
  have hnot := mt hdone (h.ne_next_of_rv rfl)
  rw [← not_and_or, not_not] at hnot
  obtain ⟨hm, hl⟩ := hnot
  exact ⟨h.code_unique (hsentinel hm hl), hm, hl⟩

theorem code_of_urSres_fails {u r : Byte} (h : FailsWith (exec (.urSres u r) s) s code) :
    code = 5 ∧ (Instr.urSres u r).operandsLegal = false := by
  obtain ⟨hdone, hfail⟩ := urSresSetsResolution.2 u r s
  obtain ⟨hr, hcode⟩ := h.not_and_code_eq hdone rfl hfail
  exact ⟨hcode, by simpa [Instr.operandsLegal, and_assoc] using hr⟩

theorem code_of_urShtr_fails {u on : Byte} (h : FailsWith (exec (.urShtr u on) s) s code) :
    code = 5 ∧ (Instr.urShtr u on).operandsLegal = false := by
  obtain ⟨hone, hzero, hfail⟩ := urShtrSetsHeaterEnable.2 u on s
  have h1 : on ≠ 0x01 := mt hone (h.ne_next_of_rv rfl)
  have h0 : on ≠ 0x00 := mt hzero (h.ne_next_of_rv rfl)
  exact ⟨h.code_unique (hfail h0 h1), by simpa [Instr.operandsLegal] using ⟨h0, h1⟩⟩

theorem code_of_hrSlvl_fails {reg v : Byte} (h : FailsWith (exec (.hrSlvl reg v) s) s code) :
    code = 3 ∧ 0x0f < v := by
  obtain ⟨hdone, hfail⟩ := hrSlvlSetsLevel.2 reg v s
  obtain ⟨hv, hcode⟩ := h.not_and_code_eq hdone rfl fun hv => hfail (BitVec.not_le.mp hv)
  exact ⟨hcode, BitVec.not_le.mp hv⟩

end

/-- Settles O47: a command that always ends with `done` did not fail; each other one fails as its own lemma says. -/
theorem errorsComeFromTheirCommands : Obligations.ErrorsComeFromTheirCommands := by
  intro i s code h
  cases i with
  | crcClr | crcByte b | crcSpan ds | urGres u | urGhtr u | hrGlvl reg => exact absurd h (not_failsWith_done s _ _ code)
  | crcChk c => exact .inl ⟨code_of_crcChk_fails h, .inl ⟨c, rfl⟩⟩
  | decRh m l c => exact .inl ⟨code_of_decRh_fails h, .inr (.inl ⟨m, l, c, rfl⟩)⟩
  | decT m l c =>
    obtain hcode | ⟨hcode, hcfg, rfl, rfl, rfl⟩ := code_of_decT_fails h
    · exact .inl ⟨hcode, .inr (.inr (.inl ⟨m, l, c, rfl⟩))⟩
    · exact .inr (.inl ⟨hcode, .inr ⟨hcfg, rfl⟩⟩)
  | decTlh m l =>
    obtain ⟨hcode, rfl, rfl⟩ := code_of_decTlh_fails h
    exact .inr (.inl ⟨hcode, .inl rfl⟩)
  | decSn b => exact .inl ⟨code_of_decSn_fails h, .inr (.inr (.inr ⟨b, rfl⟩))⟩
  | urSres u r =>
    obtain ⟨hcode, hillegal⟩ := code_of_urSres_fails h
    exact .inr (.inr (.inr ⟨hcode, .inl ⟨u, r, rfl⟩, hillegal⟩))
  | urShtr u on =>
    obtain ⟨hcode, hillegal⟩ := code_of_urShtr_fails h
    exact .inr (.inr (.inr ⟨hcode, .inr ⟨u, on, rfl⟩, hillegal⟩))
  | hrSlvl reg v =>
    obtain ⟨hcode, hv⟩ := code_of_hrSlvl_fails h
    exact .inr (.inr (.inl ⟨hcode, reg, v, rfl, hv⟩))

end Sys2Proof.Machine
end

section
/-! PROOFS of the statements about reset (70_reset_and_hazards.md R180, R182). -/

namespace Sys2Proof.Machine

open Host

/-- Settles O7: the reset move is `resetInput`, and a block with nothing presented waits. -/
theorem resetInputGivesResetState : Obligations.ResetInputGivesResetState := by
  intro s rest hp
  have hstep : step s = .next (s.withPort rest).resetInput := step_of_port_cons hp
  exact ⟨_, _, hstep, fun t _ hidle => step_of_port_nil hidle⟩

/-- A frame levels what it does not see (R14): blocks of one `CRC` and one setting of the parameters, with the same
moves waiting and a frame the first of them, look alike after it and ever after, whatever `STATUS` and `RES` were. -/
theorem run_command_nextAlike (n : Nat) {f : Frame} {rest : List HostMove} {s t : State} (hcrc : s.crc = t.crc)
    (hcfg : s.cfg = t.cfg) (hs : s.port = .command f :: rest) (ht : t.port = .command f :: rest) :
    NextAlike (core.run (n + 1) s) (core.run (n + 1) t) := by
  obtain ⟨s', hstep, hmove, hport, hcfg'⟩ := step_cons_next hs
  obtain ⟨t', hstep', hmove', hport', hcfg''⟩ := step_cons_next ht
  obtain ⟨u, v, hu, hv, hlike⟩ :=
    execFrame_nextAlike f (s := s.withPort rest) (t := t.withPort rest) hcrc hcfg
  cases hu.symm.trans hmove
  cases hv.symm.trans hmove'
  rw [run_succ_of_step n hstep, run_succ_of_step n hstep']
  exact run_nextAlike n hlike (hport.trans hport'.symm) (hcfg'.trans (hcfg.trans hcfg''.symm))

/-- Where `CRC` is already `0x00`, `CRC.CLR` put before a sequence of moves that begins with a frame makes no difference
in the end. -/
theorem run_nextAlike_run_crcClr (n : Nat) {f : Frame} {rest : List HostMove} {s : State} (hcrc : s.crc = 0x00) :
    NextAlike (core.run (n + 1) (s.withPort (.command f :: rest)))
      (core.run (n + 2) (s.withPort (.command (encode .crcClr) :: .command f :: rest))) := by
  have hclear : core.run (n + 2) (s.withPort (.command (encode .crcClr) :: .command f :: rest)) =
      core.run (n + 1) (((s.setCrc 0x00).done 0).withPort (.command f :: rest)) :=
    run_command (n + 1) rfl rfl
  rw [hclear]
  exact run_command_nextAlike n hcrc rfl rfl rfl

/-- Settles O53: the `CRC` of reset is that of `CRC.CLR`, for any setting of the parameters. -/
theorem resetServesAsFreshAccumulator : Obligations.ResetServesAsFreshAccumulator :=
  ⟨fun cfg _ fs => run_nextAlike_run_crcClr fs.length (s := { State.reset with cfg := cfg }) rfl,
    fun xs => ⟨_, exec_crcSpan xs State.reset, rfl⟩⟩

end Sys2Proof.Machine
end
